-- ==== Sys2Proof/Word.lean ====
section
/-! DEFINITION. The widths the ND-100 works with: 16-bit words (00_scope.md R10), 8-bit bytes (20_memory.md R81)
and the 4-bit number of a program level (10_state.md R31, R50). -/

namespace Sys2Proof

/-- A 16-bit register or memory word (R7, R10). -/
abbrev Word := BitVec 16

/-- Half a word: the left byte is bits 15-8, the right byte is bits 7-0 (R81). -/
abbrev Byte := BitVec 8

/-- The number of a program level, 0 lowest to 15 highest (R31, R50). -/
abbrev Level := BitVec 4

end Sys2Proof
end

