-- ==== Sys2Proof/Syntax.lean ====
section
/-! DEFINITION. The instructions of the ND-100 as syntax: one constructor of `Instr` for each row of
spec/opcode_table.json, its operand fields already decoded (30_encoding.md R122 to R135). -/

namespace Sys2Proof

/-- The operands of format MEMREF (R122): indexed by X, indirect, B-relative, and the signed displacement. -/
structure AddrMode where
  x : Bool
  i : Bool
  b : Bool
  disp : BitVec 8
deriving DecidableEq, Repr

/-- A 3-bit register code (10_state.md R32). Code 0 is STS for the bit instructions, IRR and IRW, the value 0 as
a source, and no destination for the register operations. -/
inductive RegCode where
  | zero | d | p | b | l | a | t | x
deriving DecidableEq, Repr

/-- The eight conditions of SKP, codes 0 to 7 in this order (41_sequencing.md R261). -/
inductive SkipCond where
  | eql | geq | gre | mgre | ueq | lss | lst | mlst
deriving DecidableEq, Repr

/-- The four shift types, codes 0 to 3 in this order (43_bit_shift.md R372; the codes are PRESUMED, log 14). -/
inductive ShiftType where
  | arith | rot | zin | lin
deriving DecidableEq, Repr

/-- One constructor per row of spec/opcode_table.json. -/
inductive Instr where
  /-- STZ, 0o000000 (R210). -/
  | stz (m : AddrMode)
  /-- STA, 0o004000 (R211). -/
  | sta (m : AddrMode)
  /-- STT, 0o010000 (R212). -/
  | stt (m : AddrMode)
  /-- STX, 0o014000 (R213). -/
  | stx (m : AddrMode)
  /-- STD, 0o020000 (R214). -/
  | std (m : AddrMode)
  /-- LDD, 0o024000 (R223). -/
  | ldd (m : AddrMode)
  /-- STF, 0o030000 (R215). -/
  | stf (m : AddrMode)
  /-- LDF, 0o034000 (R224). -/
  | ldf (m : AddrMode)
  /-- MIN, 0o040000 (R216). -/
  | min (m : AddrMode)
  /-- LDA, 0o044000 (R220). -/
  | lda (m : AddrMode)
  /-- LDT, 0o050000 (R221). -/
  | ldt (m : AddrMode)
  /-- LDX, 0o054000 (R222). -/
  | ldx (m : AddrMode)
  /-- ADD, 0o060000 (R230). -/
  | add (m : AddrMode)
  /-- SUB, 0o064000 (R231). -/
  | sub (m : AddrMode)
  /-- AND, 0o070000 (R232). -/
  | and (m : AddrMode)
  /-- ORA, 0o074000 (R233). -/
  | ora (m : AddrMode)
  /-- FAD, 0o100000 (R453). -/
  | fad (m : AddrMode)
  /-- FSB, 0o104000 (R454). -/
  | fsb (m : AddrMode)
  /-- FMU, 0o110000 (R455). -/
  | fmu (m : AddrMode)
  /-- FDV, 0o114000 (R456). -/
  | fdv (m : AddrMode)
  /-- MPY, 0o120000 (R234). -/
  | mpy (m : AddrMode)
  /-- JMP, 0o124000 (R250). -/
  | jmp (m : AddrMode)
  /-- JPL, 0o134000 (R251). -/
  | jpl (m : AddrMode)
  /-- JAP, 0o130000 (R253). -/
  | jap (disp : BitVec 8)
  /-- JAN, 0o130400 (R254). -/
  | jan (disp : BitVec 8)
  /-- JAZ, 0o131000 (R255). -/
  | jaz (disp : BitVec 8)
  /-- JAF, 0o131400 (R256). -/
  | jaf (disp : BitVec 8)
  /-- JPC, 0o132000 (R257). -/
  | jpc (disp : BitVec 8)
  /-- JNC, 0o132400 (R258). -/
  | jnc (disp : BitVec 8)
  /-- JXZ, 0o133000 (R259). -/
  | jxz (disp : BitVec 8)
  /-- JXN, 0o133400 (R260). -/
  | jxn (disp : BitVec 8)
  /-- SAB, 0o170000 (R308). -/
  | sab (n : BitVec 8)
  /-- SAA, 0o170400 (R309). -/
  | saa (n : BitVec 8)
  /-- SAT, 0o171000 (R310). -/
  | sat (n : BitVec 8)
  /-- SAX, 0o171400 (R312). -/
  | sax (n : BitVec 8)
  /-- AAB, 0o172000 (R313). -/
  | aab (n : BitVec 8)
  /-- AAA, 0o172400 (R314). -/
  | aaa (n : BitVec 8)
  /-- AAT, 0o173000 (R315). -/
  | aat (n : BitVec 8)
  /-- AAX, 0o173400 (R317). -/
  | aax (n : BitVec 8)
  /-- WAIT, 0o151000 (R509). -/
  | wait (n : BitVec 8)
  /-- NLZ, 0o151400 (R457). -/
  | nlz (n : BitVec 8)
  /-- DNZ, 0o152000 (R458). -/
  | dnz (n : BitVec 8)
  /-- MON, 0o153000 (R516). -/
  | mon (n : BitVec 8)
  /-- SKP, 0o140000 (R261). -/
  | skp (c : SkipCond) (sr dr : RegCode)
  /-- SWAP, 0o144000 (R320). -/
  | swap (cm1 cld : Bool) (sr dr : RegCode)
  /-- RAND, 0o144400 (R326). -/
  | rand (cm1 cld : Bool) (sr dr : RegCode)
  /-- REXO, 0o145000 (R327). -/
  | rexo (cm1 cld : Bool) (sr dr : RegCode)
  /-- RORA, 0o145400 (R328). -/
  | rora (cm1 cld : Bool) (sr dr : RegCode)
  /-- RADD, 0o146000 (R311). -/
  | radd (adc ad1 cm1 cld : Bool) (sr dr : RegCode)
  /-- COPY, 0o146100 (R319). -/
  | copy (sr dr : RegCode)
  /-- RCLR, 0o146100 (R321). -/
  | rclr (dr : RegCode)
  /-- RINC, 0o146400 (R322). -/
  | rinc (dr : RegCode)
  /-- RDCR, 0o146200 (R323). -/
  | rdcr (dr : RegCode)
  /-- RSUB, 0o146600 (R324). -/
  | rsub (sr dr : RegCode)
  /-- EXIT, 0o146142 (R316). -/
  | exit
  /-- BSET ZRO, 0o174000 (R353). -/
  | bsetZro (bn : BitVec 4) (dr : RegCode)
  /-- BSET ONE, 0o174200 (R353). -/
  | bsetOne (bn : BitVec 4) (dr : RegCode)
  /-- BSET BCM, 0o174400 (R353). -/
  | bsetBcm (bn : BitVec 4) (dr : RegCode)
  /-- BSET BAC, 0o174600 (R353). -/
  | bsetBac (bn : BitVec 4) (dr : RegCode)
  /-- BSKP ZRO, 0o175000 (R354). -/
  | bskpZro (bn : BitVec 4) (dr : RegCode)
  /-- BSKP ONE, 0o175200 (R354). -/
  | bskpOne (bn : BitVec 4) (dr : RegCode)
  /-- BSKP BCM, 0o175400 (R354). -/
  | bskpBcm (bn : BitVec 4) (dr : RegCode)
  /-- BSKP BAC, 0o175600 (R354). -/
  | bskpBac (bn : BitVec 4) (dr : RegCode)
  /-- BSTC, 0o176000 (R355). -/
  | bstc (bn : BitVec 4) (dr : RegCode)
  /-- BSTA, 0o176200 (R356). -/
  | bsta (bn : BitVec 4) (dr : RegCode)
  /-- BLDC, 0o176400 (R357). -/
  | bldc (bn : BitVec 4) (dr : RegCode)
  /-- BLDA, 0o176600 (R358). -/
  | blda (bn : BitVec 4) (dr : RegCode)
  /-- BANC, 0o177000 (R359). -/
  | banc (bn : BitVec 4) (dr : RegCode)
  /-- BAND, 0o177200 (R360). -/
  | band (bn : BitVec 4) (dr : RegCode)
  /-- BORC, 0o177400 (R361). -/
  | borc (bn : BitVec 4) (dr : RegCode)
  /-- BORA, 0o177600 (R362). -/
  | bora (bn : BitVec 4) (dr : RegCode)
  /-- SHT, 0o154000 (R374). -/
  | sht (ty : ShiftType) (cnt : BitVec 6)
  /-- SHD, 0o154200 (R375). -/
  | shd (ty : ShiftType) (cnt : BitVec 6)
  /-- SHA, 0o154400 (R376). -/
  | sha (ty : ShiftType) (cnt : BitVec 6)
  /-- SAD, 0o154600 (R377). -/
  | sad (ty : ShiftType) (cnt : BitVec 6)
  /-- IOT, 0o160000 (R523). -/
  | iot (operand : BitVec 11)
  /-- IOX, 0o164000 (R520). -/
  | iox (dev : BitVec 11)
  /-- TRA, 0o150000 (R530). -/
  | tra (r : BitVec 4)
  /-- TRR, 0o150100 (R531). -/
  | trr (r : BitVec 4)
  /-- MCL, 0o150200 (R532). -/
  | mcl (r : BitVec 4)
  /-- MST, 0o150300 (R533). -/
  | mst (r : BitVec 4)
  /-- OPCOM, 0o150400 (R510). -/
  | opcom
  /-- IOF, 0o150401 (R501). -/
  | iof
  /-- ION, 0o150402 (R502). -/
  | ion
  /-- POF, 0o150404 (R503). -/
  | pof
  /-- PIOF, 0o150405 (R505). -/
  | piof
  /-- SEX, 0o150406 (R507). -/
  | sex
  /-- REX, 0o150407 (R508). -/
  | rex
  /-- PON, 0o150410 (R504). -/
  | pon
  /-- PION, 0o150412 (R506). -/
  | pion
  /-- IOXT, 0o150415 (R521). -/
  | ioxt
  /-- EXAM, 0o150416 (R550). -/
  | exam
  /-- DEPO, 0o150417 (R551). -/
  | depo
  /-- ADDD, 0o140120 (R435). -/
  | addd
  /-- SUBD, 0o140121 (R436). -/
  | subd
  /-- COMD, 0o140122 (R437). -/
  | comd
  /-- TSET, 0o140123 (R553). -/
  | tset
  /-- PACK, 0o140124 (R438). -/
  | pack
  /-- UPACK, 0o140125 (R439). -/
  | upack
  /-- SHDE, 0o140126 (R440). -/
  | shde
  /-- RDUS, 0o140127 (R552). -/
  | rdus
  /-- BFILL, 0o140130 (R406). -/
  | bfill
  /-- MOVB, 0o140131 (R407). -/
  | movb
  /-- MOVBF, 0o140132 (R408). -/
  | movbf
  /-- INIT, 0o140134 (R484). -/
  | init
  /-- ENTR, 0o140135 (R483). -/
  | entr
  /-- LEAVE, 0o140136 (R485). -/
  | leave
  /-- ELEAV, 0o140137 (R487). -/
  | eleav
  /-- SETPT, 0o140300 (R611). -/
  | setpt
  /-- CLEPT, 0o140301 (R612). -/
  | clept
  /-- CLNREENT, 0o140302 (R614). -/
  | clnreent
  /-- CHREENTPAGES, 0o140303 (R615). -/
  | chreentpages
  /-- CLEPU, 0o140304 (R613). -/
  | clepu
  /-- WGLOB, 0o140500 (R580). -/
  | wglob
  /-- RGLOB, 0o140501 (R581). -/
  | rglob
  /-- INSPL, 0o140502 (R623). -/
  | inspl
  /-- REMPL, 0o140503 (R624). -/
  | rempl
  /-- CNREK, 0o140504 (R621). -/
  | cnrek
  /-- CLPT, 0o140505 (R620). -/
  | clpt
  /-- ENPT, 0o140506 (R622). -/
  | enpt
  /-- REPT, 0o140507 (R625). -/
  | rept
  /-- LBIT, 0o140510 (R595). -/
  | lbit
  /-- LBITP, 0o140511 (R597). -/
  | lbitp
  /-- SBIT, 0o140512 (R596). -/
  | sbit
  /-- SBITP, 0o140513 (R598). -/
  | sbitp
  /-- LBYTP, 0o140514 (R599). -/
  | lbytp
  /-- SBYTP, 0o140515 (R600). -/
  | sbytp
  /-- TSETP, 0o140516 (R601). -/
  | tsetp
  /-- RDUSP, 0o140517 (R602). -/
  | rdusp
  /-- LBYT, 0o142200 (R401). -/
  | lbyt
  /-- SBYT, 0o142600 (R402). -/
  | sbyt
  /-- GECO, 0o142700 (R556). -/
  | geco
  /-- MIX3, 0o143200 (R332). -/
  | mix3
  /-- LWCS, 0o143500 (R554). -/
  | lwcs
  /-- VERSN, 0o140133 (R555). -/
  | versn
  /-- EXR, 0o140600 (R270). -/
  | exr (sr : RegCode) (ign : BitVec 3)
  /-- RDIV, 0o141600 (R331). -/
  | rdiv (sr : RegCode) (ign : BitVec 3)
  /-- RMPY, 0o141200 (R330). -/
  | rmpy (sr dr : RegCode)
  /-- LASB, 0o140700 (R583). -/
  | lasb (delta : BitVec 3)
  /-- SASB, 0o140701 (R584). -/
  | sasb (delta : BitVec 3)
  /-- LACB, 0o140702 (R585). -/
  | lacb (delta : BitVec 3)
  /-- SACB, 0o140703 (R586). -/
  | sacb (delta : BitVec 3)
  /-- LXSB, 0o140704 (R587). -/
  | lxsb (delta : BitVec 3)
  /-- LXCB, 0o140705 (R588). -/
  | lxcb (delta : BitVec 3)
  /-- SZSB, 0o140706 (R589). -/
  | szsb (delta : BitVec 3)
  /-- SZCB, 0o140707 (R590). -/
  | szcb (delta : BitVec 3)
  /-- LDATX, 0o143300 (R572). -/
  | ldatx (delta : BitVec 3)
  /-- LDXTX, 0o143301 (R573). -/
  | ldxtx (delta : BitVec 3)
  /-- LDDTX, 0o143302 (R574). -/
  | lddtx (delta : BitVec 3)
  /-- LDBTX, 0o143303 (R575). -/
  | ldbtx (delta : BitVec 3)
  /-- STATX, 0o143304 (R576). -/
  | statx (delta : BitVec 3)
  /-- STZTX, 0o143305 (R577). -/
  | stztx (delta : BitVec 3)
  /-- STDTX, 0o143306 (R578). -/
  | stdtx (delta : BitVec 3)
  /-- MOVEW 0, 0o143100 (R420). -/
  | movew0
  /-- MOVEW 1, 0o143101 (R420). -/
  | movew1
  /-- MOVEW 2, 0o143102 (R420). -/
  | movew2
  /-- MOVEW 3, 0o143103 (R420). -/
  | movew3
  /-- MOVEW 4, 0o143104 (R420). -/
  | movew4
  /-- MOVEW 5, 0o143105 (R420). -/
  | movew5
  /-- MOVEW 6, 0o143106 (R420). -/
  | movew6
  /-- MOVEW 7, 0o143107 (R420). -/
  | movew7
  /-- MOVEW 10, 0o143110 (R420). -/
  | movew10
  /-- IDENT PL10, 0o143604 (R512). -/
  | identPl10
  /-- IDENT PL11, 0o143611 (R512). -/
  | identPl11
  /-- IDENT PL12, 0o143622 (R512). -/
  | identPl12
  /-- IDENT PL13, 0o143643 (R512). -/
  | identPl13
  /-- SRB, 0o152402 (R543). -/
  | srb (lv : Level)
  /-- LRB, 0o152600 (R542). -/
  | lrb (lv : Level)
  /-- IRW, 0o153400 (R541). -/
  | irw (lv : Level) (reg : RegCode)
  /-- IRR, 0o153600 (R540). -/
  | irr (lv : Level) (reg : RegCode)
deriving DecidableEq, Repr

end Sys2Proof
end

