-- ==== Sys2Proof/WellFormed.lean ====
section
/-! DEFINITION. Which terms of `Instr` name their own encoding. The six named forms of RADD (30_encoding.md R144)
are rows of the opcode table of their own, so a RADD term whose bits spell a named form, or a COPY term whose bits
spell RCLR or EXIT, is not well formed: its word decodes to the narrower row (log 18). -/

namespace Sys2Proof

/-- The bits of a RADD word spell COPY (with RCLR and EXIT), RINC, RDCR or RSUB (R144). -/
def Instr.raddIsNamed (adc ad1 cm1 cld : Bool) (sr : RegCode) : Bool :=
  !adc && ((!ad1 && !cm1 && cld) || (ad1 && !cm1 && !cld && sr == .zero)
    || (!ad1 && cm1 && !cld && sr == .zero) || (ad1 && cm1 && !cld))

/-- The bits of a COPY word spell RCLR (source code 0) or EXIT (COPY SL DP) (R144). -/
def Instr.copyIsNamed (sr dr : RegCode) : Bool :=
  sr == .zero || (sr == .l && dr == .p)

/-- Well-formed terms: every operand value is allowed, but for the words of a named form under a wider row. -/
def Instr.wf : Instr → Bool
  | .radd adc ad1 cm1 cld sr _ => !Instr.raddIsNamed adc ad1 cm1 cld sr
  | .copy sr dr => !Instr.copyIsNamed sr dr
  | _ => true

end Sys2Proof
end

