-- ==== Sys2Proof/Decode.lean ====
section
/-! DEFINITION. Decoding: total on any bytes, rejecting by name; and, after it, the encoder written from the same
tables (30_encoding.md R120 to R144). Every instruction is one 16-bit word, stored left byte first (R81, R120). -/

namespace Sys2Proof

/-- The bits `lo + n - 1` down to `lo` of an instruction word (R6). -/
def field (w : Word) (lo n : Nat) : BitVec n := w.extractLsb' lo n

/-- Register codes (10_state.md R32). -/
def RegCode.ofBits (c : BitVec 3) : RegCode :=
  match c with
  | 0 => .zero | 1 => .d | 2 => .p | 3 => .b | 4 => .l | 5 => .a | 6 => .t | _ => .x

/-- The 3-bit code of a register (R32). -/
def RegCode.bits : RegCode → BitVec 3
  | .zero => 0 | .d => 1 | .p => 2 | .b => 3 | .l => 4 | .a => 5 | .t => 6 | .x => 7

/-- SKP condition codes (41_sequencing.md R261). -/
def SkipCond.ofBits (c : BitVec 3) : SkipCond :=
  match c with
  | 0 => .eql | 1 => .geq | 2 => .gre | 3 => .mgre | 4 => .ueq | 5 => .lss | 6 => .lst | _ => .mlst

/-- The 3-bit code of a SKP condition (R261). -/
def SkipCond.bits : SkipCond → BitVec 3
  | .eql => 0 | .geq => 1 | .gre => 2 | .mgre => 3 | .ueq => 4 | .lss => 5 | .lst => 6 | .mlst => 7

/-- Shift type codes; PRESUMED, the source gives only the order (R128, R372; log 14). -/
def ShiftType.ofBits (c : BitVec 2) : ShiftType :=
  match c with
  | 0 => .arith | 1 => .rot | 2 => .zin | _ => .lin

/-- The 2-bit code of a shift type (R128). -/
def ShiftType.bits : ShiftType → BitVec 2
  | .arith => 0 | .rot => 1 | .zin => 2 | .lin => 3

/-- The operand fields of format MEMREF (R122). -/
def memField (w : Word) : AddrMode := ⟨w.getLsbD 10, w.getLsbD 9, w.getLsbD 8, field w 0 8⟩

/-- The source field, bits 5-3 (R32, R125). -/
def srField (w : Word) : RegCode := RegCode.ofBits (field w 3 3)

/-- The destination field, bits 2-0 (R32, R125). -/
def drField (w : Word) : RegCode := RegCode.ofBits (field w 0 3)

/-- Conditional jumps by bits 10-8 (R123). -/
def decodeCjmp (w : Word) : Instr :=
  match field w 8 3 with
  | 0 => .jap (field w 0 8)
  | 1 => .jan (field w 0 8)
  | 2 => .jaz (field w 0 8)
  | 3 => .jaf (field w 0 8)
  | 4 => .jpc (field w 0 8)
  | 5 => .jnc (field w 0 8)
  | 6 => .jxz (field w 0 8)
  | _ => .jxn (field w 0 8)

/-- Argument instructions by bits 10-8 (R124, R140). -/
def decodeArg (w : Word) : Instr :=
  match field w 8 3 with
  | 0 => .sab (field w 0 8)
  | 1 => .saa (field w 0 8)
  | 2 => .sat (field w 0 8)
  | 3 => .sax (field w 0 8)
  | 4 => .aab (field w 0 8)
  | 5 => .aaa (field w 0 8)
  | 6 => .aat (field w 0 8)
  | _ => .aax (field w 0 8)

/-- Bit instructions by bits 10-7 (R127, R351). -/
def decodeBop (w : Word) : Instr :=
  match field w 7 4 with
  | 0 => .bsetZro (field w 3 4) (drField w)
  | 1 => .bsetOne (field w 3 4) (drField w)
  | 2 => .bsetBcm (field w 3 4) (drField w)
  | 3 => .bsetBac (field w 3 4) (drField w)
  | 4 => .bskpZro (field w 3 4) (drField w)
  | 5 => .bskpOne (field w 3 4) (drField w)
  | 6 => .bskpBcm (field w 3 4) (drField w)
  | 7 => .bskpBac (field w 3 4) (drField w)
  | 8 => .bstc (field w 3 4) (drField w)
  | 9 => .bsta (field w 3 4) (drField w)
  | 10 => .bldc (field w 3 4) (drField w)
  | 11 => .blda (field w 3 4) (drField w)
  | 12 => .banc (field w 3 4) (drField w)
  | 13 => .band (field w 3 4) (drField w)
  | 14 => .borc (field w 3 4) (drField w)
  | _ => .bora (field w 3 4) (drField w)

/-- Shift instructions by bits 8-7; bit 6 must be 0 (R128, R378). -/
def decodeShift (w : Word) : Option Instr :=
  if w.getLsbD 6 then none
  else
    match field w 7 2 with
    | 0 => some (.sht (ShiftType.ofBits (field w 9 2)) (field w 0 6))
    | 1 => some (.shd (ShiftType.ofBits (field w 9 2)) (field w 0 6))
    | 2 => some (.sha (ShiftType.ofBits (field w 9 2)) (field w 0 6))
    | _ => some (.sad (ShiftType.ofBits (field w 9 2)) (field w 0 6))

/-- The arithmetic register operations: RADD, and its named forms, the narrowest first (R125, R144; log 18). -/
def decodeRadd (adc ad1 cm1 cld : Bool) (sr dr : RegCode) : Instr :=
  match adc, ad1, cm1, cld with
  | false, false, false, true =>
    if sr == .zero then .rclr dr
    else if sr == .l && dr == .p then .exit
    else .copy sr dr
  | false, true, false, false => if sr == .zero then .rinc dr else .radd false true false false sr dr
  | false, false, true, false => if sr == .zero then .rdcr dr else .radd false false true false sr dr
  | false, true, true, false => .rsub sr dr
  | adc, ad1, cm1, cld => .radd adc ad1 cm1 cld sr dr

/-- Register operations: bit 10 tells arithmetic from logical, bits 9-8 the logical kind (R125). -/
def decodeRop (w : Word) : Instr :=
  if w.getLsbD 10 then
    decodeRadd (w.getLsbD 9) (w.getLsbD 8) (w.getLsbD 7) (w.getLsbD 6) (srField w) (drField w)
  else
    match field w 8 2 with
    | 0 => .swap (w.getLsbD 7) (w.getLsbD 6) (srField w) (drField w)
    | 1 => .rand (w.getLsbD 7) (w.getLsbD 6) (srField w) (drField w)
    | 2 => .rexo (w.getLsbD 7) (w.getLsbD 6) (srField w) (drField w)
    | _ => .rora (w.getLsbD 7) (w.getLsbD 6) (srField w) (drField w)

/-- The eight table-bank instructions, format DELTA with base 0o140700 (R134, R582). -/
def decodeBank (w : Word) : Instr :=
  match field w 0 3 with
  | 0 => .lasb (field w 3 3)
  | 1 => .sasb (field w 3 3)
  | 2 => .lacb (field w 3 3)
  | 3 => .sacb (field w 3 3)
  | 4 => .lxsb (field w 3 3)
  | 5 => .lxcb (field w 3 3)
  | 6 => .szsb (field w 3 3)
  | _ => .szcb (field w 3 3)

/-- The seven xxTX instructions, format DELTA with base 0o143300; type 7 is unassigned (R134, R579). -/
def decodeTx (w : Word) : Option Instr :=
  match field w 0 3 with
  | 0 => some (.ldatx (field w 3 3))
  | 1 => some (.ldxtx (field w 3 3))
  | 2 => some (.lddtx (field w 3 3))
  | 3 => some (.ldbtx (field w 3 3))
  | 4 => some (.statx (field w 3 3))
  | 5 => some (.stztx (field w 3 3))
  | 6 => some (.stdtx (field w 3 3))
  | _ => none

/-- The fixed words of the extended range 0o140000 to 0o143777 (R141, R143); the IDENT level codes are PRESUMED (log 15). -/
def decodeExtFixed (w : Word) : Option Instr :=
  if w = 0o140120#16 then some .addd
  else if w = 0o140121#16 then some .subd
  else if w = 0o140122#16 then some .comd
  else if w = 0o140123#16 then some .tset
  else if w = 0o140124#16 then some .pack
  else if w = 0o140125#16 then some .upack
  else if w = 0o140126#16 then some .shde
  else if w = 0o140127#16 then some .rdus
  else if w = 0o140130#16 then some .bfill
  else if w = 0o140131#16 then some .movb
  else if w = 0o140132#16 then some .movbf
  else if w = 0o140133#16 then some .versn
  else if w = 0o140134#16 then some .init
  else if w = 0o140135#16 then some .entr
  else if w = 0o140136#16 then some .leave
  else if w = 0o140137#16 then some .eleav
  else if w = 0o140300#16 then some .setpt
  else if w = 0o140301#16 then some .clept
  else if w = 0o140302#16 then some .clnreent
  else if w = 0o140303#16 then some .chreentpages
  else if w = 0o140304#16 then some .clepu
  else if w = 0o140500#16 then some .wglob
  else if w = 0o140501#16 then some .rglob
  else if w = 0o140502#16 then some .inspl
  else if w = 0o140503#16 then some .rempl
  else if w = 0o140504#16 then some .cnrek
  else if w = 0o140505#16 then some .clpt
  else if w = 0o140506#16 then some .enpt
  else if w = 0o140507#16 then some .rept
  else if w = 0o140510#16 then some .lbit
  else if w = 0o140511#16 then some .lbitp
  else if w = 0o140512#16 then some .sbit
  else if w = 0o140513#16 then some .sbitp
  else if w = 0o140514#16 then some .lbytp
  else if w = 0o140515#16 then some .sbytp
  else if w = 0o140516#16 then some .tsetp
  else if w = 0o140517#16 then some .rdusp
  else if w = 0o142200#16 then some .lbyt
  else if w = 0o142600#16 then some .sbyt
  else if w = 0o142700#16 then some .geco
  else if w = 0o143100#16 then some .movew0
  else if w = 0o143101#16 then some .movew1
  else if w = 0o143102#16 then some .movew2
  else if w = 0o143103#16 then some .movew3
  else if w = 0o143104#16 then some .movew4
  else if w = 0o143105#16 then some .movew5
  else if w = 0o143106#16 then some .movew6
  else if w = 0o143107#16 then some .movew7
  else if w = 0o143110#16 then some .movew10
  else if w = 0o143200#16 then some .mix3
  else if w = 0o143500#16 then some .lwcs
  else if w = 0o143604#16 then some .identPl10
  else if w = 0o143611#16 then some .identPl11
  else if w = 0o143622#16 then some .identPl12
  else if w = 0o143643#16 then some .identPl13
  else none

/-- The extended range, words 0o140000 to 0o143777 with bits 7-6 not 00 (R141). -/
def decodeExt (w : Word) : Option Instr :=
  match field w 6 5 with
  | 6 => some (.exr (srField w) (field w 0 3))
  | 7 => some (decodeBank w)
  | 10 => some (.rmpy (srField w) (drField w))
  | 14 => some (.rdiv (srField w) (field w 0 3))
  | 27 => decodeTx w
  | _ => decodeExtFixed w

/-- The fixed words of the system range 0o150000 to 0o153777 (R142). -/
def decodeSysFixed (w : Word) : Option Instr :=
  if w = 0o150400#16 then some .opcom
  else if w = 0o150401#16 then some .iof
  else if w = 0o150402#16 then some .ion
  else if w = 0o150404#16 then some .pof
  else if w = 0o150405#16 then some .piof
  else if w = 0o150406#16 then some .sex
  else if w = 0o150407#16 then some .rex
  else if w = 0o150410#16 then some .pon
  else if w = 0o150412#16 then some .pion
  else if w = 0o150415#16 then some .ioxt
  else if w = 0o150416#16 then some .exam
  else if w = 0o150417#16 then some .depo
  else none

/-- TRA, TRR, MCL, MST with bits 5-4 = 00, by bits 7-6 (R132). -/
def decodeIreg (w : Word) : Option Instr :=
  match field w 4 4 with
  | 0 => some (.tra (field w 0 4))
  | 4 => some (.trr (field w 0 4))
  | 8 => some (.mcl (field w 0 4))
  | 12 => some (.mst (field w 0 4))
  | _ => none

/-- SRB (bit 7 = 0, bits 2-0 = 010) and LRB (bit 7 = 1, bits 2-0 = 000) (R131). -/
def decodeRegBlk (w : Word) : Option Instr :=
  if w.getLsbD 7 then
    if field w 0 3 = 0 then some (.lrb (field w 3 4)) else none
  else if field w 0 3 = 2 then some (.srb (field w 3 4))
  else none

/-- The system range, words 0o150000 to 0o153777, by bits 10-8 (R142). -/
def decodeSys (w : Word) : Option Instr :=
  match field w 8 3 with
  | 0 => decodeIreg w
  | 1 => decodeSysFixed w
  | 2 => some (.wait (field w 0 8))
  | 3 => some (.nlz (field w 0 8))
  | 4 => some (.dnz (field w 0 8))
  | 5 => decodeRegBlk w
  | 6 => some (.mon (field w 0 8))
  | _ => if w.getLsbD 7 then some (.irr (field w 3 4) (drField w)) else some (.irw (field w 3 4) (drField w))

/-- The first level of the opcode map: bits 15-11 of the word (R140). `none` is an unassigned word (R150). -/
def decodeWord (w : Word) : Option Instr :=
  match field w 11 5 with
  | 0 => some (.stz (memField w))
  | 1 => some (.sta (memField w))
  | 2 => some (.stt (memField w))
  | 3 => some (.stx (memField w))
  | 4 => some (.std (memField w))
  | 5 => some (.ldd (memField w))
  | 6 => some (.stf (memField w))
  | 7 => some (.ldf (memField w))
  | 8 => some (.min (memField w))
  | 9 => some (.lda (memField w))
  | 10 => some (.ldt (memField w))
  | 11 => some (.ldx (memField w))
  | 12 => some (.add (memField w))
  | 13 => some (.sub (memField w))
  | 14 => some (.and (memField w))
  | 15 => some (.ora (memField w))
  | 16 => some (.fad (memField w))
  | 17 => some (.fsb (memField w))
  | 18 => some (.fmu (memField w))
  | 19 => some (.fdv (memField w))
  | 20 => some (.mpy (memField w))
  | 21 => some (.jmp (memField w))
  | 22 => some (decodeCjmp w)
  | 23 => some (.jpl (memField w))
  | 24 =>
    if field w 6 2 = 0 then some (.skp (SkipCond.ofBits (field w 8 3)) (srField w) (drField w))
    else decodeExt w
  | 25 => some (decodeRop w)
  | 26 => decodeSys w
  | 27 => decodeShift w
  | 28 => some (.iot (field w 0 11))
  | 29 => some (.iox (field w 0 11))
  | 30 => some (decodeArg w)
  | _ => some (decodeBop w)

/-- Why bytes are no instruction. -/
inductive DecodeError where
  /-- Fewer than the two bytes of a word. -/
  | truncated
  /-- The word matches no row of the opcode map (R150). -/
  | unassigned (w : Word)
deriving DecidableEq, Repr

/-- Decode the first instruction of a list of bytes, left byte first (R81, R120), and give the rest. -/
def decode : List Byte → Except DecodeError (Instr × List Byte)
  | hi :: lo :: rest =>
    match decodeWord (hi ++ lo) with
    | some i => .ok (i, rest)
    | none => .error (.unassigned (hi ++ lo))
  | _ => .error .truncated

/-- The two bytes of a word as memory holds them, left byte first (R81). -/
def wordBytes (w : Word) : List Byte := [w.extractLsb' 8 8, w.extractLsb' 0 8]

/-- The instruction the decoder reads from the instruction word numbered as spec/opcode_table.json numbers it.
Every instruction is one word (R120), so every bit of an instruction is a bit of `w`. -/
def decodeTableWord (_nbits w : Nat) : Option Instr :=
  match decode (wordBytes (BitVec.ofNat 16 w)) with
  | .ok (i, _) => some i
  | .error _ => none

/-- Format MEMREF (R122). -/
def memWord (op : BitVec 5) (m : AddrMode) : Word :=
  op ++ BitVec.ofBool m.x ++ BitVec.ofBool m.i ++ BitVec.ofBool m.b ++ m.disp

/-- Formats ARG and CJMP: the opcode byte and an 8-bit argument (R123, R124). -/
def argWord (op : BitVec 8) (n : BitVec 8) : Word := op ++ n

/-- Format ROP: `kind` is bits 10-8 (R125). -/
def ropWord (kind : BitVec 3) (cm1 cld : Bool) (sr dr : RegCode) : Word :=
  0b11001#5 ++ kind ++ BitVec.ofBool cm1 ++ BitVec.ofBool cld ++ sr.bits ++ dr.bits

/-- Format ROP with bit 10 set: RADD and its named forms (R125, R144). -/
def raddWord (adc ad1 cm1 cld : Bool) (sr dr : RegCode) : Word :=
  ropWord (1#1 ++ BitVec.ofBool adc ++ BitVec.ofBool ad1) cm1 cld sr dr

/-- Format BOP: `type` is bits 10-7 (R127). -/
def bopWord (type : BitVec 4) (bn : BitVec 4) (dr : RegCode) : Word :=
  0b11111#5 ++ type ++ bn ++ dr.bits

/-- Format SHIFT: `reg` is bits 8-7, bit 6 is 0 (R128). -/
def shiftWord (reg : BitVec 2) (ty : ShiftType) (cnt : BitVec 6) : Word :=
  0b11011#5 ++ ty.bits ++ reg ++ 0#1 ++ cnt

/-- Format SRDR and SRONLY: bits 15-6, a source field and bits 2-0 (R133). -/
def srWord (op : BitVec 10) (sr : RegCode) (low : BitVec 3) : Word := op ++ sr.bits ++ low

/-- Format DELTA: bits 15-6, the displacement and the type (R134). -/
def deltaWord (op : BitVec 10) (delta : BitVec 3) (type : BitVec 3) : Word := op ++ delta ++ type

/-- Formats LVLREG and REGBLK: bits 15-7, a level and bits 2-0 (R130, R131). -/
def lvlWord (op : BitVec 9) (lv : Level) (low : BitVec 3) : Word := op ++ lv ++ low

/-- The word of an instruction, from the encoding tables (R120 to R144). -/
def encodeWord : Instr → Word
  | .stz m => memWord 0 m
  | .sta m => memWord 1 m
  | .stt m => memWord 2 m
  | .stx m => memWord 3 m
  | .std m => memWord 4 m
  | .ldd m => memWord 5 m
  | .stf m => memWord 6 m
  | .ldf m => memWord 7 m
  | .min m => memWord 8 m
  | .lda m => memWord 9 m
  | .ldt m => memWord 10 m
  | .ldx m => memWord 11 m
  | .add m => memWord 12 m
  | .sub m => memWord 13 m
  | .and m => memWord 14 m
  | .ora m => memWord 15 m
  | .fad m => memWord 16 m
  | .fsb m => memWord 17 m
  | .fmu m => memWord 18 m
  | .fdv m => memWord 19 m
  | .mpy m => memWord 20 m
  | .jmp m => memWord 21 m
  | .jpl m => memWord 23 m
  | .jap disp => argWord 0o260#8 disp
  | .jan disp => argWord 0o261#8 disp
  | .jaz disp => argWord 0o262#8 disp
  | .jaf disp => argWord 0o263#8 disp
  | .jpc disp => argWord 0o264#8 disp
  | .jnc disp => argWord 0o265#8 disp
  | .jxz disp => argWord 0o266#8 disp
  | .jxn disp => argWord 0o267#8 disp
  | .sab n => argWord 0o360#8 n
  | .saa n => argWord 0o361#8 n
  | .sat n => argWord 0o362#8 n
  | .sax n => argWord 0o363#8 n
  | .aab n => argWord 0o364#8 n
  | .aaa n => argWord 0o365#8 n
  | .aat n => argWord 0o366#8 n
  | .aax n => argWord 0o367#8 n
  | .wait n => argWord 0o322#8 n
  | .nlz n => argWord 0o323#8 n
  | .dnz n => argWord 0o324#8 n
  | .mon n => argWord 0o326#8 n
  | .skp c sr dr => 0b11000#5 ++ c.bits ++ 0#2 ++ sr.bits ++ dr.bits
  | .swap cm1 cld sr dr => ropWord 0 cm1 cld sr dr
  | .rand cm1 cld sr dr => ropWord 1 cm1 cld sr dr
  | .rexo cm1 cld sr dr => ropWord 2 cm1 cld sr dr
  | .rora cm1 cld sr dr => ropWord 3 cm1 cld sr dr
  | .radd adc ad1 cm1 cld sr dr => raddWord adc ad1 cm1 cld sr dr
  | .copy sr dr => raddWord false false false true sr dr
  | .rclr dr => raddWord false false false true .zero dr
  | .rinc dr => raddWord false true false false .zero dr
  | .rdcr dr => raddWord false false true false .zero dr
  | .rsub sr dr => raddWord false true true false sr dr
  | .exit => 0o146142#16
  | .bsetZro bn dr => bopWord 0 bn dr
  | .bsetOne bn dr => bopWord 1 bn dr
  | .bsetBcm bn dr => bopWord 2 bn dr
  | .bsetBac bn dr => bopWord 3 bn dr
  | .bskpZro bn dr => bopWord 4 bn dr
  | .bskpOne bn dr => bopWord 5 bn dr
  | .bskpBcm bn dr => bopWord 6 bn dr
  | .bskpBac bn dr => bopWord 7 bn dr
  | .bstc bn dr => bopWord 8 bn dr
  | .bsta bn dr => bopWord 9 bn dr
  | .bldc bn dr => bopWord 10 bn dr
  | .blda bn dr => bopWord 11 bn dr
  | .banc bn dr => bopWord 12 bn dr
  | .band bn dr => bopWord 13 bn dr
  | .borc bn dr => bopWord 14 bn dr
  | .bora bn dr => bopWord 15 bn dr
  | .sht ty cnt => shiftWord 0 ty cnt
  | .shd ty cnt => shiftWord 1 ty cnt
  | .sha ty cnt => shiftWord 2 ty cnt
  | .sad ty cnt => shiftWord 3 ty cnt
  | .iot operand => 0b11100#5 ++ operand
  | .iox dev => 0b11101#5 ++ dev
  | .tra r => 0o6400#12 ++ r
  | .trr r => 0o6404#12 ++ r
  | .mcl r => 0o6410#12 ++ r
  | .mst r => 0o6414#12 ++ r
  | .opcom => 0o150400#16
  | .iof => 0o150401#16
  | .ion => 0o150402#16
  | .pof => 0o150404#16
  | .piof => 0o150405#16
  | .sex => 0o150406#16
  | .rex => 0o150407#16
  | .pon => 0o150410#16
  | .pion => 0o150412#16
  | .ioxt => 0o150415#16
  | .exam => 0o150416#16
  | .depo => 0o150417#16
  | .addd => 0o140120#16
  | .subd => 0o140121#16
  | .comd => 0o140122#16
  | .tset => 0o140123#16
  | .pack => 0o140124#16
  | .upack => 0o140125#16
  | .shde => 0o140126#16
  | .rdus => 0o140127#16
  | .bfill => 0o140130#16
  | .movb => 0o140131#16
  | .movbf => 0o140132#16
  | .init => 0o140134#16
  | .entr => 0o140135#16
  | .leave => 0o140136#16
  | .eleav => 0o140137#16
  | .setpt => 0o140300#16
  | .clept => 0o140301#16
  | .clnreent => 0o140302#16
  | .chreentpages => 0o140303#16
  | .clepu => 0o140304#16
  | .wglob => 0o140500#16
  | .rglob => 0o140501#16
  | .inspl => 0o140502#16
  | .rempl => 0o140503#16
  | .cnrek => 0o140504#16
  | .clpt => 0o140505#16
  | .enpt => 0o140506#16
  | .rept => 0o140507#16
  | .lbit => 0o140510#16
  | .lbitp => 0o140511#16
  | .sbit => 0o140512#16
  | .sbitp => 0o140513#16
  | .lbytp => 0o140514#16
  | .sbytp => 0o140515#16
  | .tsetp => 0o140516#16
  | .rdusp => 0o140517#16
  | .lbyt => 0o142200#16
  | .sbyt => 0o142600#16
  | .geco => 0o142700#16
  | .mix3 => 0o143200#16
  | .lwcs => 0o143500#16
  | .versn => 0o140133#16
  | .exr sr ign => srWord 0o1406 sr ign
  | .rdiv sr ign => srWord 0o1416 sr ign
  | .rmpy sr dr => srWord 0o1412 sr dr.bits
  | .lasb delta => deltaWord 0o1407 delta 0
  | .sasb delta => deltaWord 0o1407 delta 1
  | .lacb delta => deltaWord 0o1407 delta 2
  | .sacb delta => deltaWord 0o1407 delta 3
  | .lxsb delta => deltaWord 0o1407 delta 4
  | .lxcb delta => deltaWord 0o1407 delta 5
  | .szsb delta => deltaWord 0o1407 delta 6
  | .szcb delta => deltaWord 0o1407 delta 7
  | .ldatx delta => deltaWord 0o1433 delta 0
  | .ldxtx delta => deltaWord 0o1433 delta 1
  | .lddtx delta => deltaWord 0o1433 delta 2
  | .ldbtx delta => deltaWord 0o1433 delta 3
  | .statx delta => deltaWord 0o1433 delta 4
  | .stztx delta => deltaWord 0o1433 delta 5
  | .stdtx delta => deltaWord 0o1433 delta 6
  | .movew0 => 0o143100#16
  | .movew1 => 0o143101#16
  | .movew2 => 0o143102#16
  | .movew3 => 0o143103#16
  | .movew4 => 0o143104#16
  | .movew5 => 0o143105#16
  | .movew6 => 0o143106#16
  | .movew7 => 0o143107#16
  | .movew10 => 0o143110#16
  | .identPl10 => 0o143604#16
  | .identPl11 => 0o143611#16
  | .identPl12 => 0o143622#16
  | .identPl13 => 0o143643#16
  | .srb lv => lvlWord 0o652 lv 2
  | .lrb lv => lvlWord 0o653 lv 0
  | .irw lv reg => lvlWord 0o656 lv reg.bits
  | .irr lv reg => lvlWord 0o657 lv reg.bits

/-- The bytes of an instruction as memory holds them. -/
def encode (i : Instr) : List Byte := wordBytes (encodeWord i)

end Sys2Proof
end

