-- ==== Sys2Proof/Config.lean ====
section
/-! DEFINITION. What an installation fixes (00_scope.md R12) and the values the spec leaves open. The parameters that
are plain data are the structure `Params`, which State holds, so that a statement about every state is a statement
about every value of them. The parameters that are functions, and the open values, are constants with no body: no
proof can see a value of theirs. -/

namespace Sys2Proof.Config

/-! ## Translation (20_memory.md R96) -/

/-- The kind of an access (R90, R96). -/
inductive AccessKind where
  | fetch | read | write
deriving DecidableEq, Repr

/-- The table an access names; only MOVEW names one (R96, 44_byte_block_decimal.md R421). -/
inductive TableTag where
  | untagged | viaPt | viaApt
deriving DecidableEq, Repr

/-- What `Translate` and `Ring` may read of the state (R96). -/
structure TransView where
  level : Level
  pcr : Word
  ptm : Bool
  sexi : Bool
  pageTable : List Host.Cell
deriving DecidableEq, Repr

/-- Where an access goes: a word of physical memory, or a word of the page tables (R97). -/
inductive TransTarget where
  | phys (pa : BitVec 24)
  | table (i : BitVec 9)
deriving DecidableEq, Repr

/-- What `Translate` answers (R96): a place, with the page-table words whose PGU bit and, for a write, whose WIP bit
it sets; or one of the two faults. -/
inductive TransAnswer where
  | ok (target : TransTarget) (pgu wip : Option (BitVec 9))
  | pageFault
  | protectViolation
deriving DecidableEq, Repr, Inhabited

/-- One question put to `Translate` (R96). -/
structure TransQuery where
  view : TransView
  kind : AccessKind
  tag : TableTag
  addr : Word
deriving DecidableEq, Repr

/-! ## The parameters that are plain data -/

/-- CPU_MODEL (R12): VERSN exists on the ND-110 only, LWCS is a no-operation there. -/
inductive CpuModel where
  | nd100 | nd110
deriving DecidableEq, Repr

/-- FP_FORMAT (R12): 32-bit accumulator A, D or 48-bit accumulator T, A, D (45_floating.md R450). -/
inductive FpFormat where
  | fp32 | fp48
deriving DecidableEq, Repr

/-- VERSION_INFO (R12, 47_system_control.md R555). -/
structure VersionInfo where
  print : BitVec 12
  ald : BitVec 4
  microprogram : Word
  installation : Vector Byte 16
deriving DecidableEq, Repr

/-- The internal registers TRA reads (10_state.md R59). -/
inductive ReadReg where
  | pans | sts | opr | psr | pvl | iic | pid | pie | csr | actl | ald | pes | pgc | pea | cs
deriving DecidableEq, Repr

/-- The internal registers TRR writes (10_state.md R59). -/
inductive WriteReg where
  | panc | sts | lmp | pcr | iie | pid | pie | ccl | lcil | ucil | cilp | eccr | cs
deriving DecidableEq, Repr

/-- INTERNAL_REG_CODES (R12): what each of the sixteen numbers names for TRA, and what it names for TRR, MCL and MST;
`none` is a number not assigned. -/
structure RegCodes where
  read : Vector (Option ReadReg) 16
  write : Vector (Option WriteReg) 16
deriving DecidableEq, Repr

/-- The default table of 10_state.md R60: PRESUMED but for STS (log 12). CS has no known number. -/
def RegCodes.default : RegCodes where
  read := #v[some .pans, some .sts, some .opr, some .psr, some .pvl, some .iic, some .pid, some .pie,
    some .csr, some .actl, some .ald, some .pes, some .pgc, some .pea, none, none]
  write := #v[some .panc, some .sts, some .lmp, some .pcr, none, some .iie, some .pid, some .pie,
    some .ccl, some .lcil, some .ucil, some .cilp, none, some .eccr, none, none]

/-- The causes of internal interrupts (60_exceptions.md R710). -/
inductive IntCode where
  | monitorCall | memoryProtectViolation | pageFault | illegalInstruction | errorFlag
  | privilegedInstruction | ioxError | memoryParityError | memoryOutOfRange | powerFail
deriving DecidableEq, Repr

/-- IIC_CODES (R12): the number of each cause, which is its bit in IIE and what IIC holds (60_exceptions.md R710). -/
structure IicCodes where
  monitorCall : BitVec 4
  memoryProtectViolation : BitVec 4
  pageFault : BitVec 4
  illegalInstruction : BitVec 4
  errorFlag : BitVec 4
  privilegedInstruction : BitVec 4
  ioxError : BitVec 4
  memoryParityError : BitVec 4
  memoryOutOfRange : BitVec 4
  powerFail : BitVec 4
deriving DecidableEq, Repr

/-- The default table of 60_exceptions.md R710: PRESUMED (log 13). -/
def IicCodes.default : IicCodes where
  monitorCall := 1
  memoryProtectViolation := 2
  pageFault := 3
  illegalInstruction := 4
  errorFlag := 5
  privilegedInstruction := 6
  ioxError := 7
  memoryParityError := 8
  memoryOutOfRange := 9
  powerFail := 10

/-- Code 0 is no cause's: IIC holds it when no internal interrupt waits to be read (60_exceptions.md R710). -/
def IicCodes.wf (c : IicCodes) : Bool :=
  [c.monitorCall, c.memoryProtectViolation, c.pageFault, c.illegalInstruction, c.errorFlag, c.privilegedInstruction,
    c.ioxError, c.memoryParityError, c.memoryOutOfRange, c.powerFail].all (· != 0)

/-- The plain-data parameters of R12. `physWords` is PHYS_WORDS, at most 2^24; `regCodes` is INTERNAL_REG_CODES;
`iicCodes` is IIC_CODES; `blockLenBits` is BLOCK_LEN_BITS. The lists are answers known of `Translate` and `Ring`: where
they say nothing, the answer is open (log 6). -/
structure Params where
  cpuModel : CpuModel
  fpFormat : FpFormat
  physWords : Nat
  japZeroJumps : Bool
  regCodes : RegCodes
  iicCodes : IicCodes
  blockLenBits : Nat
  versionInfo : VersionInfo
  translations : List (TransQuery × TransAnswer)
  rings : List (TransView × BitVec 2)
deriving DecidableEq, Repr

/-- The parameters of the machine `State.reset` describes: JAP_ZERO_JUMPS, INTERNAL_REG_CODES, IIC_CODES and
BLOCK_LEN_BITS at the defaults of R12, the others a DESIGN CHOICE (log 5). -/
def Params.default : Params where
  cpuModel := .nd110
  fpFormat := .fp48
  physWords := 16777216
  japZeroJumps := true
  regCodes := .default
  iicCodes := .default
  blockLenBits := 12
  versionInfo := ⟨0, 0, 0, Vector.replicate 16 0⟩
  translations := []
  rings := []

/-- PHYS_WORDS is at most 2^24 (R12), and no internal interrupt has code 0 (60_exceptions.md R710). -/
def Params.wf (p : Params) : Bool := p.physWords ≤ 16777216 && p.iicCodes.wf

/-! ## Open values -/

/-- One value of a type that has one, nothing else being known of it. -/
opaque someOf (T : Type) [Inhabited T] : T

/-- The n-th open value (`any value`, R8) the machine draws; used wherever a rule leaves a value open (log 10). -/
opaque freeWord : Nat → Word

/-- `Translate` (R12, R96) where no answer of it is listed: used only with memory management on (log 6). -/
opaque openTranslate : TransQuery → TransAnswer

/-- `Ring` (R12, R96, 60_exceptions.md R730) where no answer of it is listed (log 6). -/
opaque openRing : TransView → BitVec 2

/-- The parameter `Translate` (R12, R96). -/
def Params.translate (p : Params) (q : TransQuery) : TransAnswer := (p.translations.lookup q).getD (openTranslate q)

/-- The parameter `Ring` (R12, R96, 60_exceptions.md R730). -/
def Params.ring (p : Params) (v : TransView) : BitVec 2 := (p.rings.lookup v).getD (openRing v)

/-! ## The host's I/O system (R92). The first argument is the machine's count of draws, so that two accesses may be
answered differently; `none` and `false` mean that no device answers (47_system_control.md R522; log 8). -/

/-- `IoRead`. -/
opaque ioRead : Nat → Word → Option Word

/-- `IoWrite`: whether a device takes the word. -/
opaque ioWriteAnswered : Nat → Word → Word → Bool

/-- `IoIdent`: the code of the highest-priority device requesting on a level (R512). -/
opaque ioIdent : Nat → Level → Option Word

/-! ## Floating-point arithmetic (45_floating.md R451) -/

/-- `FpOps` for a `w`-bit format, with the value m * 2^e of each pattern, of which R451 speaks. -/
structure FpOps (w : Nat) where
  add : BitVec w → BitVec w → Bool → BitVec w × Bool
  sub : BitVec w → BitVec w → Bool → BitVec w × Bool
  mul : BitVec w → BitVec w → Bool → BitVec w × Bool
  div : BitVec w → BitVec w → Bool → BitVec w × Bool
  nlz : Word → BitVec 8 → Bool → BitVec w
  dnz : BitVec w → BitVec 8 → Bool → Word × Bool
  value : BitVec w → Int × Int

/-- The pairs (m, e) and (m', e') stand for the same number m * 2^e. -/
def SameNumber (a b : Int × Int) : Prop :=
  a.1 * 2 ^ (a.2 - min a.2 b.2).toNat = b.1 * 2 ^ (b.2 - min a.2 b.2).toNat

/-- `r` is an integer part of m * 2^(e + k): exact where that is an integer, else a neighbouring integer (truncated or
rounded), and 0 where its absolute value is below 1 (R451 (c), (d); R458). -/
def IntegerPart (v : Int × Int) (k r : Int) : Prop :=
  if 0 ≤ v.2 + k then r = v.1 * 2 ^ (v.2 + k).toNat
  else |r * 2 ^ (-(v.2 + k)).toNat - v.1| < 2 ^ (-(v.2 + k)).toNat
    ∧ (|v.1| < 2 ^ (-(v.2 + k)).toNat → r = 0)

/-- The constraints the source puts on `FpOps` (R451 (a) to (d)). -/
structure FpOps.Valid {w : Nat} (o : FpOps w) : Prop where
  /-- (a) Division by zero signals the error, zero being whatever `nlz 0` gives. -/
  divZero : ∀ x sf tg tg', (o.div x (o.nlz 0 sf tg') tg).2 = true
  /-- (b) `nlz n sf` has the value n * 2^(sf - 16). -/
  nlzValue : ∀ n sf tg, SameNumber (o.value (o.nlz n sf tg)) (n.toInt, sf.toInt - 16)
  /-- (c), (d) `dnz x sf` is the integer part of value(x) * 2^(-16 - sf); the error is exactly an absolute value above
  32767. That this holds for every scaling factor, and not for -16 alone, is the model's choice (log 57). -/
  dnzInteger : ∀ x sf tg, ∃ r : Int, IntegerPart (o.value x) (-16 - sf.toInt) r ∧
    if r.natAbs ≤ 32767 then o.dnz x sf tg = (BitVec.ofInt 16 r, false) else (o.dnz x sf tg).2 = true

/-- `FpOps` that meet the constraints of R451. -/
structure ValidFpOps (w : Nat) where
  ops : FpOps w
  valid : ops.Valid

/-- Arithmetic that meets R451, kept only to show that some does: a pattern is an integer and its scaling factor. -/
def FpOps.sample {w : Nat} (pack : Word → BitVec 8 → BitVec w) (unpack : BitVec w → Word × BitVec 8) : FpOps w where
  add x _ _ := (x, false)
  sub x _ _ := (x, false)
  mul x _ _ := (x, false)
  div x y _ := (x, (unpack y).1 == 0)
  nlz n sf _ := pack n sf
  dnz x sf _ :=
    let m := (unpack x).1.toInt
    let k := (unpack x).2.toInt - 16 + (-16 - sf.toInt)
    let r := if 0 ≤ k then m * 2 ^ k.toNat else m.tdiv (2 ^ (-k).toNat)
    if r.natAbs ≤ 32767 then (BitVec.ofInt 16 r, false) else (0, true)
  value x := ((unpack x).1.toInt, (unpack x).2.toInt - 16)

theorem FpOps.sample_valid {w : Nat} (pack : Word → BitVec 8 → BitVec w) (unpack : BitVec w → Word × BitVec 8)
    (h : ∀ n sf, unpack (pack n sf) = (n, sf)) : (FpOps.sample pack unpack).Valid where
  divZero x sf tg tg' := by simp [FpOps.sample, h]
  nlzValue n sf tg := by simp [FpOps.sample, SameNumber, h]
  dnzInteger x sf tg := by
    refine ⟨if 0 ≤ (unpack x).2.toInt - 16 + (-16 - sf.toInt)
        then (unpack x).1.toInt * 2 ^ ((unpack x).2.toInt - 16 + (-16 - sf.toInt)).toNat
        else (unpack x).1.toInt.tdiv (2 ^ (-((unpack x).2.toInt - 16 + (-16 - sf.toInt))).toNat), ?_, ?_⟩
    · simp only [FpOps.sample, IntegerPart]
      split
      · rfl
      · generalize (-((unpack x).2.toInt - 16 + (-16 - sf.toInt))).toNat = e
        generalize (unpack x).1.toInt = m
        have hq : (0 : Int) < 2 ^ e := by positivity
        generalize (2 : Int) ^ e = q at hq
        have h1 := Int.tmod_add_mul_tdiv m q
        have h2 : |m.tmod q| < q := by
          rw [← Int.natCast_natAbs, Int.natAbs_tmod]
          have := Nat.mod_lt m.natAbs (y := q.natAbs) (by omega)
          omega
        refine ⟨?_, fun h3 => ?_⟩
        · rw [show m.tdiv q * q - m = -(m.tmod q) by rw [mul_comm]; omega, abs_neg]
          exact h2
        · rw [← Int.natCast_natAbs] at h3
          have h4 : m.natAbs / q.natAbs = 0 := Nat.div_eq_of_lt (by omega)
          have h5 : (m.tdiv q).natAbs = 0 := by rw [Int.natAbs_tdiv]; exact h4
          omega
    · simp only [FpOps.sample]
      split_ifs <;> rfl

/-- Some arithmetic meets R451 in the 32-bit format. -/
def sampleFp32 : ValidFpOps 32 :=
  ⟨FpOps.sample (fun n sf => n ++ 0#8 ++ sf) (fun x => (x.extractLsb' 16 16, x.extractLsb' 0 8)),
    FpOps.sample_valid _ _ fun n sf => by
      refine Prod.ext ?_ ?_ <;> ext i hi <;>
        simp only [BitVec.getElem_extractLsb', BitVec.getLsbD_append] <;> grind⟩

/-- Some arithmetic meets R451 in the 48-bit format. -/
def sampleFp48 : ValidFpOps 48 :=
  ⟨FpOps.sample (fun n sf => 0#8 ++ sf ++ n ++ 0#16) (fun x => (x.extractLsb' 16 16, x.extractLsb' 32 8)),
    FpOps.sample_valid _ _ fun n sf => by
      refine Prod.ext ?_ ?_ <;> ext i hi <;>
        simp only [BitVec.getElem_extractLsb', BitVec.getLsbD_append] <;> grind⟩

/-- The parameter `FpOps` of a 32-bit machine: any that meets R451 (log 7). -/
def fp32 : ValidFpOps 32 := @someOf (ValidFpOps 32) ⟨sampleFp32⟩

/-- The parameter `FpOps` of a 48-bit machine: any that meets R451 (log 7). -/
def fp48 : ValidFpOps 48 := @someOf (ValidFpOps 48) ⟨sampleFp48⟩

end Sys2Proof.Config
end

