-- ==== Sys2Proof/Machine/State.lean ====
section
/-! DEFINITION. Everything the machine holds, as plain data, and the machine right after power-up (10_state.md,
70_reset_and_hazards.md R750). -/

namespace Sys2Proof.Machine

open Sys2Proof Sys2Proof.Config

/-- Why the machine stops. -/
inductive Fault where
  /-- Raised by `takeTrap`: a trap of kind fault that cannot be taken at once, because the interrupt system is off,
  level 14 or the cause is not enabled, or level 14 or 15 runs. R712 (b): "the instruction can neither complete nor
  be left, and the source says nothing of a machine in that state". Safe: the machine stops. -/
  | trapNotTakeable (c : IntCode)
deriving DecidableEq, Repr

/-- Why an instruction has no meaning. -/
inductive Refusal where
  /-- Raised by `exec` for an instruction that has no meaning yet; no arm does. Safe. -/
  | notModelled (mnemonic : String)
  /-- GECO: the source gives no operands and no effect (47_system_control.md R556). Safe. -/
  | gecoUndocumented
  /-- The eight SINTRAN instructions the source names and does not define, executed by an entitled program
  (48_sintran_control.md R614, R615, R620 to R625). Safe. -/
  | sintranUndefined (mnemonic : String)
  /-- LWCS on an ND-100: its description is in a manual the source does not contain (R554). Safe. -/
  | lwcsOnNd100
  /-- TRA, TRR, MCL, MST with an internal register number that INTERNAL_REG_CODES leaves unassigned (R60) or, for MCL
  and MST, other than that of STS, PID, PIE (30_encoding.md R151 (c)). Safe. -/
  | internalRegisterUnassigned (r : BitVec 4)
  /-- A bit instruction on bits 8 to 15 of STS (43_bit_shift.md R352). Safe. -/
  | stsUpperBit (bn : BitVec 4)
  /-- PACK or UPACK with an ASCII sign code the source does not assign (44_byte_block_decimal.md R430). Safe. -/
  | asciiCodeUnassigned (code : BitVec 3)
  /-- A fault while a decimal instruction writes its result (70_reset_and_hazards.md R771). Safe. -/
  | decimalResultFault (c : IntCode)
deriving DecidableEq, Repr

/-- The eight working registers of one level (10_state.md R30, R31); of STS only bits 7-0 are per level (R41). -/
structure RegSet where
  sts : Byte
  d : Word
  p : Word
  b : Word
  l : Word
  a : Word
  t : Word
  x : Word
deriving DecidableEq, Repr

/-- The run state (47_system_control.md R511). -/
inductive Run where
  | running | stopped
deriving DecidableEq, Repr

/-- What the host may do between two steps (60_exceptions.md R700 step 1, R706, R710, R742). -/
inductive HostEvent where
  /-- Devices request the levels whose bits are set; only bits 10 to 13 and 15 count (R706). -/
  | deviceRequest (levels : Word)
  /-- The operator starts a stopped CPU (R511). -/
  | operatorStart
  /-- Another bus agent writes one word of physical memory (R742, R103). -/
  | agentWrite (pa : BitVec 24) (v : Word)
  /-- The memory reports a parity error (R710, code 8). -/
  | parityError
  /-- The power supply reports failing power (R710, code 10). -/
  | powerFailing
deriving DecidableEq, Repr

/-- What the CPU tells the host (20_memory.md R92; 47_system_control.md R510, R512). -/
inductive HostOutput where
  | ioRead (addr : Word)
  | ioWrite (addr : Word) (v : Word)
  | ident (level : Level)
  | opcom
deriving DecidableEq, Repr

/-- A store of bytes: (byte address, byte) pairs in one canonical form (see `Memory.wf`). Word w of a store is the
bytes 2w (bits 15-8) and 2w + 1 (bits 7-0) (R81; log 17). -/
abbrev Memory := List Host.Cell

/-- The state of the machine. The last four fields are the model's own (log 5, 8, 9, 10). -/
structure State where
  /-- Reg[lv], the working registers of the sixteen levels (R31). -/
  regs : Vector RegSet 16
  /-- PCR[lv] (R56). -/
  pcr : Vector Word 16
  /-- The running level (R50). -/
  pil : Level
  /-- The interrupt system is on (R51). -/
  ioni : Bool
  /-- The memory management system is on (R52). -/
  poni : Bool
  /-- Extended (24-bit) address mode (R52). -/
  sexi : Bool
  /-- Priority interrupt detect (R54). -/
  pid : Word
  /-- Priority interrupt enable (R54). -/
  pie : Word
  /-- Internal interrupt code (R55). -/
  iic : BitVec 4
  /-- Internal interrupt enable (R55). -/
  iie : Word
  /-- Previous level (R55). -/
  pvl : Level
  /-- Bank number of the segment table (R58). -/
  stbnk : Word
  /-- Start address of the segment table (R58). -/
  stsrt : Word
  /-- Bank number of the core map table (R58). -/
  cmbnk : Word
  /-- The run state (R511). -/
  run : Run
  /-- Phys, physical memory (R84). -/
  mem : Memory
  /-- PT, the page tables (R97). -/
  pt : Memory
  /-- The parameters of R12 that are plain data. -/
  params : Params
  /-- How many open values have been drawn. -/
  draws : Nat
  /-- For each coming step, what the host does before it. -/
  inbox : List (List HostEvent)
  /-- What the CPU has told the host, newest first. -/
  outbox : List HostOutput
deriving DecidableEq, Repr

/-- The registers of a level at reset: the spec gives no value (R78); 0 is a DESIGN CHOICE (log 2, log 3). -/
def RegSet.reset : RegSet where
  sts := 0
  d := 0
  p := 0
  b := 0
  l := 0
  a := 0
  t := 0
  x := 0

/-- The machine right after power-up (R750): PID = PIE = PIL = 0 (source), IONI = PONI = SEXI = 0 and Run = Running
(the spec's decision, log 4), all else a DESIGN CHOICE (log 1, 2, 3, 5). -/
def State.reset : State where
  regs := Vector.replicate 16 RegSet.reset
  pcr := Vector.replicate 16 0
  pil := 0
  ioni := false
  poni := false
  sexi := false
  pid := 0
  pie := 0
  iic := 0
  iie := 0
  pvl := 0
  stbnk := 0
  stsrt := 0
  cmbnk := 0
  run := .running
  mem := []
  pt := []
  params := Params.default
  draws := 0
  inbox := []
  outbox := []

end Sys2Proof.Machine
end

