-- ==== Sys2Proof/Machine/Memory.lean ====
section
/-! DEFINITION. A store of bytes in one canonical form (20_memory.md R80, R81, R84). -/

namespace Sys2Proof.Machine

/-- What a byte that the list does not name reads as. The spec gives memory no contents at power-up (R78); 0 is a
DESIGN CHOICE (log 1). -/
def Memory.unlisted : Byte := 0

/-- The canonical form: addresses strictly rising, and no entry equal to what an unlisted address reads as. -/
abbrev Memory.wf (m : Memory) : Prop :=
  (m.map Prod.fst).Pairwise (· < ·) ∧ ∀ c ∈ m, c.2 ≠ Memory.unlisted

/-- The byte at a byte address. -/
def Memory.byteAt : Memory → Nat → Byte
  | [], _ => Memory.unlisted
  | (a, b) :: m, n => if n = a then b else Memory.byteAt m n

/-- The list without the entries of one address. -/
def Memory.erase : Memory → Nat → Memory
  | [], _ => []
  | (a, b) :: m, n => if n = a then Memory.erase m n else (a, b) :: Memory.erase m n

/-- The list with an entry put before the first higher address. -/
def Memory.insert : Memory → Nat → Byte → Memory
  | [], n, v => [(n, v)]
  | (a, b) :: m, n, v => if n < a then (n, v) :: (a, b) :: m else (a, b) :: Memory.insert m n v

/-- Write one byte, keeping the canonical form: the value an unlisted address reads as is not listed. -/
def Memory.writeByte (m : Memory) (n : Nat) (v : Byte) : Memory :=
  if v = Memory.unlisted then Memory.erase m n else Memory.insert (Memory.erase m n) n v

/-- The left byte of a word, bits 15-8 (R81). -/
def leftByte (w : Word) : Byte := w.extractLsb' 8 8

/-- The right byte of a word, bits 7-0 (R81). -/
def rightByte (w : Word) : Byte := w.extractLsb' 0 8

/-- Word `w` of a store: the byte at 2w is the left one (R81). -/
def Memory.wordAt (m : Memory) (w : Nat) : Word := m.byteAt (2 * w) ++ m.byteAt (2 * w + 1)

/-- Write word `w` of a store (R81). -/
def Memory.writeWord (m : Memory) (w : Nat) (v : Word) : Memory :=
  (m.writeByte (2 * w) (leftByte v)).writeByte (2 * w + 1) (rightByte v)

end Sys2Proof.Machine
end

