-- ==== Sys2Proof/Machine/Ops.lean ====
section
/-! DEFINITION. The named operations over registers and memory, and taking an internal interrupt. Nothing but these
touches a field of the state: a meaning is written over them. -/

namespace Sys2Proof.Machine

open Sys2Proof Sys2Proof.Config

/-! ## Words -/

/-- A word with one bit replaced (R350). -/
def setBit {w : Nat} (v : BitVec w) (n : Nat) (b : Bool) : BitVec w :=
  if b then v ||| BitVec.twoPow w n else v &&& ~~~BitVec.twoPow w n

/-- Sign extension of an 8-bit field to a word (R8). -/
def sext8 (v : BitVec 8) : Word := v.signExtend 16

/-- A Boolean as a one-bit number. -/
def bit (b : Bool) : BitVec 1 := BitVec.ofBool b

/-! ## Named updates of the state -/

/-- The register set of a level (R31). -/
def State.level (s : State) (lv : Level) : RegSet := s.regs[lv.toNat]'lv.isLt

/-- Replace the register set of a level. -/
def State.setLevel (s : State) (lv : Level) (r : RegSet) : State := { s with regs := s.regs.set lv.toNat r lv.isLt }

/-- The register set of the running level (R31). -/
def State.cur (s : State) : RegSet := s.level s.pil

/-- Replace the register set of the running level. -/
def State.setCur (s : State) (r : RegSet) : State := s.setLevel s.pil r

/-- The paging control register of a level (R56). -/
def State.pcrOf (s : State) (lv : Level) : Word := s.pcr[lv.toNat]'lv.isLt

/-- Load the paging control register of a level (R56, R534). -/
def State.setPcr (s : State) (lv : Level) (v : Word) : State := { s with pcr := s.pcr.set lv.toNat v lv.isLt }

def State.setPil (s : State) (lv : Level) : State := { s with pil := lv }
def State.setIoni (s : State) (b : Bool) : State := { s with ioni := b }
def State.setPoni (s : State) (b : Bool) : State := { s with poni := b }
def State.setSexi (s : State) (b : Bool) : State := { s with sexi := b }
def State.setPid (s : State) (v : Word) : State := { s with pid := v }
def State.setPie (s : State) (v : Word) : State := { s with pie := v }
def State.setIic (s : State) (v : BitVec 4) : State := { s with iic := v }
def State.setIie (s : State) (v : Word) : State := { s with iie := v }
def State.setPvl (s : State) (lv : Level) : State := { s with pvl := lv }

/-- WGLOB's three hidden pointers (R58, R580). -/
def State.setGlobals (s : State) (stbnk stsrt cmbnk : Word) : State :=
  { s with stbnk := stbnk, stsrt := stsrt, cmbnk := cmbnk }

def State.setRun (s : State) (r : Run) : State := { s with run := r }
def State.setMem (s : State) (m : Memory) : State := { s with mem := m }
def State.setPt (s : State) (m : Memory) : State := { s with pt := m }
def State.setInbox (s : State) (q : List (List HostEvent)) : State := { s with inbox := q }

/-- Tell the host something (R92, R510, R512; log 8). -/
def State.emit (s : State) (o : HostOutput) : State := { s with outbox := o :: s.outbox }

/-- The state after `n` open values have been drawn (R8; log 10). -/
def State.drawn (s : State) (n : Nat) : State := { s with draws := s.draws + n }

/-- The `i`-th open value from here on (R8, `any value`; log 10). -/
def State.anyWord (s : State) (i : Nat) : Word := freeWord (s.draws + i)

/-! ## Registers by code -/

/-- A register by its code; code 0 reads as the value 0 (R32, R300). -/
def RegSet.get (r : RegSet) : RegCode → Word
  | .zero => 0
  | .d => r.d
  | .p => r.p
  | .b => r.b
  | .l => r.l
  | .a => r.a
  | .t => r.t
  | .x => r.x

/-- Write a register by its code; a write to code 0 is discarded (R303). -/
def RegSet.set (r : RegSet) (c : RegCode) (v : Word) : RegSet :=
  match c with
  | .zero => r
  | .d => { r with d := v }
  | .p => { r with p := v }
  | .b => { r with b := v }
  | .l => { r with l := v }
  | .a => { r with a := v }
  | .t => { r with t := v }
  | .x => { r with x := v }

/-- P <- P + 1, the end of an instruction that does not write P (R36, R37). -/
def RegSet.advance (r : RegSet) : RegSet := { r with p := r.p + 1 }

/-- P <- P + 2, a skip (R36). -/
def RegSet.skip (r : RegSet) : RegSet := { r with p := r.p + 2 }

/-- Write a destination register and go on: a write to P is a jump, with no increment (R38, R302). -/
def RegSet.writeTo (r : RegSet) (c : RegCode) (v : Word) : RegSet :=
  if c = .p then { r with p := v } else (r.set c v).advance

/-- P <- P + 1 on the running level. -/
def State.advance (s : State) : State := s.setCur s.cur.advance

/-! ## Results of a part of an instruction -/

/-- What a part of an instruction answers: a value and the state; an internal interrupt of kind fault, with the
effects made before it (R712, R713); or no meaning. -/
inductive Res (α : Type) where
  | ok (a : α) (s : State)
  | trap (c : IntCode) (s : State)
  | stop (r : Refusal)
deriving DecidableEq, Repr

/-- Go on with the value and the state, or end. -/
def Res.bind {α β : Type} (r : Res α) (f : α → State → Res β) : Res β :=
  match r with
  | .ok a s => f a s
  | .trap c s => .trap c s
  | .stop x => .stop x

/-! ## Privilege (60_exceptions.md R730, R731) -/

/-- What `Translate` and `Ring` may read of the state (R96). -/
def State.transView (s : State) : TransView where
  level := s.pil
  pcr := s.pcrOf s.pil
  ptm := s.cur.sts.getLsbD 0
  sexi := s.sexi
  pageTable := s.pt

/-- The running program may execute privileged instructions: memory management is off, or its ring is 2 or 3 (R731). -/
def State.entitled (s : State) : Bool := !s.poni || 2 ≤ (s.params.ring s.transView).toNat

/-- The privilege check, before any effect (R731). -/
def privileged (s : State) (body : Res Unit) : Res Unit :=
  if s.entitled then body else .trap .privilegedInstruction s

/-! ## Where an access goes (20_memory.md) -/

/-- The page-table range 0o177000 to 0o177777 of an address space of 16 bits (R86, R97). -/
def inTableRange (a : Word) : Bool := 0o177000#16 ≤ a

/-- The word of PT that an address of the page-table range names (R97). -/
def tableIndex (a : Word) : BitVec 9 := a.extractLsb' 0 9

/-- A physical address at or above PHYS_WORDS raises MemoryOutOfRange (R84). -/
def State.installed (s : State) : TransTarget → Bool
  | .phys pa => pa.toNat < s.params.physWords
  | .table _ => true

/-- The word at a place (R84, R97). -/
def State.readPlace (s : State) : TransTarget → Word
  | .phys pa => s.mem.wordAt pa.toNat
  | .table i => s.pt.wordAt i.toNat

/-- Write the word at a place (R84, R97). -/
def State.writePlace (s : State) (v : Word) : TransTarget → State
  | .phys pa => s.setMem (s.mem.writeWord pa.toNat v)
  | .table i => s.setPt (s.pt.writeWord i.toNat v)

/-- Set one bit of a page-table word, if there is one to set: PGU is bit 11, WIP bit 12 (R95, R96). -/
def State.mark (s : State) (n : Nat) : Option (BitVec 9) → State
  | none => s
  | some i => s.setPt (s.pt.writeWord i.toNat (setBit (s.pt.wordAt i.toNat) n true))

/-- Physical addresses are 19 bits in the normal mode, 24 bits in the extended one (R13). -/
def State.physWidth (s : State) : TransTarget → TransTarget
  | .phys pa => .phys (if s.sexi then pa else (pa.extractLsb' 0 19).setWidth 24)
  | .table i => .table i

/-- With memory management on and STS.PTM = 0, the tag `via APT` is treated as `via PT` (R421). -/
def State.tableTag (s : State) : TableTag → TableTag
  | .viaApt => if s.cur.sts.getLsbD 0 then .viaApt else .viaPt
  | t => t

/-- The place of a logical address, with memory management on (R90, R96; log 6). The bits `Translate` sets are set
when the access is made. -/
def translated (k : AccessKind) (t : TableTag) (a : Word) (s : State) : Res TransTarget :=
  match s.params.translate ⟨s.transView, k, s.tableTag t, a⟩ with
  | .ok target pgu wip =>
    if s.installed (s.physWidth target) then
      .ok (s.physWidth target) ((s.mark 11 pgu).mark 12 (if k = .write then wip else none))
    else .trap .memoryOutOfRange s
  | .pageFault => .trap .pageFault s
  | .protectViolation => .trap .memoryProtectViolation s

/-- The place of a logical address: the page tables for an entitled program that names their range (R97), else
through `Translate` with memory management on, else the address in bank 0 (R90). -/
def locate (k : AccessKind) (t : TableTag) (a : Word) (s : State) : Res TransTarget :=
  if inTableRange a && s.entitled then .ok (.table (tableIndex a)) s
  else if s.poni then translated k t a s
  else if s.installed (.phys (a.setWidth 24)) then .ok (.phys (a.setWidth 24)) s
  else .trap .memoryOutOfRange s

/-- `MemRead` with the table an access names (R90, R96). -/
def memReadVia (t : TableTag) (a : Word) (s : State) : Res Word :=
  (locate .read t a s).bind fun p s => .ok (s.readPlace p) s

/-- `MemWrite` with the table an access names (R90, R96). -/
def memWriteVia (t : TableTag) (a v : Word) (s : State) : Res Unit :=
  (locate .write t a s).bind fun p s => .ok () (s.writePlace v p)

/-- `MemRead(a, 1)` (R90). -/
def memRead (a : Word) (s : State) : Res Word := memReadVia .untagged a s

/-- `MemWrite(a, 1, v)` (R90). -/
def memWrite (a v : Word) (s : State) : Res Unit := memWriteVia .untagged a v s

/-- The instruction fetch: `MemRead(P, 1)` with kind fetch (R91). -/
def fetchWord (s : State) : Res Word :=
  (locate .fetch .untagged s.cur.p s).bind fun p s => .ok (s.readPlace p) s

/-- Words at ascending addresses from `a`, each address modulo 2^16 (R100, R202). -/
def memReadList (a : Word) : Nat → State → Res (List Word)
  | 0, s => .ok [] s
  | n + 1, s => (memRead a s).bind fun v s => (memReadList (a + 1) n s).bind fun vs s => .ok (v :: vs) s

/-- Write words at ascending addresses from `a` (R100). -/
def memWriteList (a : Word) : List Word → State → Res Unit
  | [], s => .ok () s
  | v :: vs, s => (memWrite a v s).bind fun _ s => memWriteList (a + 1) vs s

/-- The indivisible pair of TSET: the address is translated once, as a write, before either access (R101, R553). -/
def memTestAndSet (a : Word) (s : State) : Res Word :=
  (locate .write .untagged a s).bind fun p s => .ok (s.readPlace p) (s.writePlace 0o177777 p)

/-- The bank a bank register names: 8 bits in the extended mode, 3 bits in the normal one (R85). -/
def State.bank (s : State) (b : Word) : BitVec 8 :=
  if s.sexi then b.extractLsb' 0 8 else (b.extractLsb' 0 3).setWidth 8

/-- `pa(bank, addr)` (R85), with the page-table range of bank 0 (R97). -/
def State.physPlace (s : State) (b a : Word) : TransTarget :=
  if s.bank b = 0 && inTableRange a then .table (tableIndex a) else .phys (s.bank b ++ a)

/-- `PhysRead(pa(bank, addr))` (R84). -/
def physRead (b a : Word) (s : State) : Res Word :=
  if s.installed (s.physPlace b a) then .ok (s.readPlace (s.physPlace b a)) s else .trap .memoryOutOfRange s

/-- `PhysWrite(pa(bank, addr), v)` (R84). -/
def physWrite (b a v : Word) (s : State) : Res Unit :=
  if s.installed (s.physPlace b a) then .ok () (s.writePlace v (s.physPlace b a)) else .trap .memoryOutOfRange s

/-! ## Bytes in words (R81, R110) -/

/-- `LoadByte`: half 0 is the left byte (R110). -/
def loadByte (w : Word) (half : Bool) : Byte := if half then rightByte w else leftByte w

/-- `StoreByte`: the other half keeps its value (R83, R110). -/
def storeByte (w : Word) (half : Bool) (v : Byte) : Word := if half then leftByte w ++ v else v ++ rightByte w

/-! ## Internal interrupts (60_exceptions.md R709 to R713) -/

/-- The code of an internal interrupt, by the parameter IIC_CODES (R710; log 13). -/
def State.intCode (s : State) : IntCode → BitVec 4
  | .monitorCall => s.params.iicCodes.monitorCall
  | .memoryProtectViolation => s.params.iicCodes.memoryProtectViolation
  | .pageFault => s.params.iicCodes.pageFault
  | .illegalInstruction => s.params.iicCodes.illegalInstruction
  | .errorFlag => s.params.iicCodes.errorFlag
  | .privilegedInstruction => s.params.iicCodes.privilegedInstruction
  | .ioxError => s.params.iicCodes.ioxError
  | .memoryParityError => s.params.iicCodes.memoryParityError
  | .memoryOutOfRange => s.params.iicCodes.memoryOutOfRange
  | .powerFail => s.params.iicCodes.powerFail

/-- The cause is enabled: IIE bit n enables code n (R710). -/
def State.causeEnabled (s : State) (c : IntCode) : Bool := s.iie.getLsbD (s.intCode c).toNat

/-- The code IIC holds after `Latch`: when another code still stands in it, either of the two (R712 (d); log 10). -/
def State.latchedCode (s : State) (c : IntCode) : BitVec 4 :=
  if s.iic = 0 then s.intCode c else if (s.anyWord 0).getLsbD 0 then s.iic else s.intCode c

/-- `Latch(c)` and PID[14] <- 1 (R712). -/
def State.request (s : State) (c : IntCode) : State :=
  ((((s.setPvl s.pil).setIic (s.latchedCode c)).setPid (setBit s.pid 14 true)).drawn 1)

/-- A fault can be taken at once (R712). -/
def State.faultTakeable (s : State) (c : IntCode) : Bool :=
  s.ioni && s.pie.getLsbD 14 && s.causeEnabled c && s.pil.toNat < 14

/-- TAKING AN INTERNAL INTERRUPT of kind fault: PVL and IIC are latched, PID[14] is set, P stays on the instruction,
and level selection before the next fetch enters level 14; a fault that cannot be taken stops the machine (R712;
log 11). -/
def takeTrap (c : IntCode) (s : State) : Host.Outcome State Fault Refusal :=
  if s.faultTakeable c then .next (s.request c) else .fault (.trapNotTakeable c)

/-- A request of kind after completion: nothing unless its IIE bit is 1 (R712). -/
def State.requestIfEnabled (s : State) (c : IntCode) : State := if s.causeEnabled c then s.request c else s

/-- The error flag Z of the running level (R40). -/
def State.errorFlag (s : State) : Bool := s.cur.sts.getLsbD 3

/-- Z of the running level went from 0 to 1 in the instruction: raise ErrorFlag (R708). -/
def State.raiseErrorFlag (before after : State) : State :=
  if !before.errorFlag && after.errorFlag then after.requestIfEnabled .errorFlag else after

/-- The end of an instruction begun in state `before`: the after-completion request of Z, or the fault (R700 steps 6
to 8). -/
def finish (before : State) (r : Res Unit) : Host.Outcome State Fault Refusal :=
  match r with
  | .ok _ s => .next (before.raiseErrorFlag s)
  | .trap c s => takeTrap c s
  | .stop x => .refused x

/-! ## Program levels (60_exceptions.md R703, R707, R725) -/

/-- The highest set bit among bits `n` down to 1, or 0. -/
def highestBit (m : Word) : Nat → Nat
  | 0 => 0
  | n + 1 => if m.getLsbD (n + 1) then n + 1 else highestBit m n

/-- Level selection, before every fetch: the highest level whose PID and PIE bits are 1, level 0 if there is none;
nothing with the interrupt system off (R703). -/
def State.select (s : State) : State :=
  if s.ioni then s.setPil (BitVec.ofNat 4 (highestBit (s.pid &&& s.pie) 15)) else s

/-- RETURNING FROM AN INTERRUPT: there is no return instruction; a level gives itself up by clearing its own PID bit,
and level selection resumes the highest requesting level, at its own P (R707, R725). -/
def State.giveUpLevel (s : State) : State := s.setPid (setBit s.pid s.pil.toNat false)

/-! ## Host events (R700 step 1) -/

/-- The PID bits a device may set: 10 to 13 and 15 (R706). -/
def deviceLevels : Word := 0o136000

/-- One host event (R700 step 1; log 9). -/
def State.takeEvent (s : State) : HostEvent → State
  | .deviceRequest lv => s.setPid (s.pid ||| (lv &&& deviceLevels))
  | .operatorStart => s.setRun .running
  | .agentWrite pa v => if s.installed (.phys pa) then s.writePlace v (.phys pa) else s
  | .parityError => s.requestIfEnabled .memoryParityError
  | .powerFailing => s.requestIfEnabled .powerFail

/-- The host events before this step (R700 step 1). -/
def State.takeEvents (s : State) : State := (s.inbox.headD []).foldl State.takeEvent (s.setInbox s.inbox.tail)

end Sys2Proof.Machine
end

