-- ==== Sys2Proof/Machine/Flags.lean ====
section
/-! DEFINITION. The flags of STS (10_state.md R40, R42) and every flag computation of the spec. -/

namespace Sys2Proof.Machine

open Sys2Proof

/-! ## The flags by name (R40) -/

def RegSet.ptm (r : RegSet) : Bool := r.sts.getLsbD 0
def RegSet.tg (r : RegSet) : Bool := r.sts.getLsbD 1
def RegSet.k (r : RegSet) : Bool := r.sts.getLsbD 2
def RegSet.z (r : RegSet) : Bool := r.sts.getLsbD 3
def RegSet.q (r : RegSet) : Bool := r.sts.getLsbD 4
def RegSet.o (r : RegSet) : Bool := r.sts.getLsbD 5
def RegSet.c (r : RegSet) : Bool := r.sts.getLsbD 6
def RegSet.m (r : RegSet) : Bool := r.sts.getLsbD 7

/-- Write the one-bit accumulator K. -/
def RegSet.setK (r : RegSet) (b : Bool) : RegSet := { r with sts := setBit r.sts 2 b }

/-- Set the error flag Z, which no instruction of this kind clears (R42). -/
def RegSet.signalError (r : RegSet) (err : Bool) : RegSet := if err then { r with sts := setBit r.sts 3 true } else r

/-- Write the multi-shift link flag M. -/
def RegSet.setM (r : RegSet) (b : Bool) : RegSet := { r with sts := setBit r.sts 7 b }

/-- The overflow rule: on overflow O and Q are set, without it Q is reset and O keeps its value (R204, R234). -/
def overflowFlags (ovf : Bool) (sts : Byte) : Byte :=
  if ovf then setBit (setBit sts 5 true) 4 true else setBit sts 4 false

/-! ## The 16-bit adder (40_memory_reference.md R204) -/

/-- The exact 17-bit sum. -/
def addExact (a b : Word) (cin : Bool) : Nat := a.toNat + b.toNat + cin.toNat

/-- The sum modulo 2^16. -/
def addWord (a b : Word) (cin : Bool) : Word := BitVec.ofNat 16 (addExact a b cin)

/-- A carry out of bit 15. -/
def addCarry (a b : Word) (cin : Bool) : Bool := 65536 ≤ addExact a b cin

/-- The signs of the operands are equal and the sign of the result is different. -/
def addOverflow (a b : Word) (cin : Bool) : Bool := a.msb == b.msb && (addWord a b cin).msb != a.msb

/-- The flags `Add16` writes: C, and O and Q by the overflow rule (R204; C is 0 without a carry, log 19). -/
def addFlags (a b : Word) (cin : Bool) (sts : Byte) : Byte :=
  overflowFlags (addOverflow a b cin) (setBit sts 6 (addCarry a b cin))

/-! ## The comparison of SKP (41_sequencing.md R261) -/

/-- S, the sign of (dr) - (sr). -/
def skipSign (d s : Word) : Bool := (addWord d (~~~s) true).msb

/-- Z, the result is zero. -/
def skipZero (d s : Word) : Bool := addWord d (~~~s) true = 0

/-- C, the carry: no borrow. -/
def skipCarry (d s : Word) : Bool := addCarry d (~~~s) true

/-- O, the signed difference overflows. -/
def skipOverflow (d s : Word) : Bool := d.msb != s.msb && (addWord d (~~~s) true).msb != d.msb

/-- The eight conditions of SKP on (dr) - (sr) (R261). -/
def skipCondition (c : SkipCond) (d s : Word) : Bool :=
  match c with
  | .eql => skipZero d s
  | .geq => !skipSign d s
  | .gre => !(skipSign d s ^^ skipOverflow d s)
  | .mgre => skipCarry d s
  | .ueq => !skipZero d s
  | .lss => skipSign d s
  | .lst => skipSign d s ^^ skipOverflow d s
  | .mlst => !skipCarry d s

/-! ## Multiplication and division (R234, R330, R331) -/

/-- The exact signed product. -/
def mulExact (a b : Word) : Int := a.toInt * b.toInt

/-- The overflow of MPY: the product has an absolute value greater than 32767 (R234; log 20). -/
def mulOverflow (a b : Word) : Bool := 32767 < (mulExact a b).natAbs

/-- C, O and Q become open values, the other flags stay (R330, R331; log 21). -/
def openArithFlags (v : Word) (sts : Byte) : Byte :=
  setBit (setBit (setBit sts 6 (v.getLsbD 0)) 5 (v.getLsbD 1)) 4 (v.getLsbD 2)

/-- RDIV overflows: the divisor is 0 or the quotient is no 16-bit signed number (R331). -/
def divOverflow (n : Int) (v : Word) : Bool :=
  v = 0 || n.tdiv v.toInt < -32768 || 32767 < n.tdiv v.toInt

/-! ## Shifts (43_bit_shift.md R370 to R373) -/

/-- The counter is a 6-bit two's complement number: bit 5 means right (R371). -/
def shiftRight (cnt : BitVec 6) : Bool := cnt.msb

/-- The number of one-bit steps: 0 to 31 left, 1 to 32 right (R371). -/
def shiftSteps (cnt : BitVec 6) : Nat := if shiftRight cnt then 64 - cnt.toNat else cnt.toNat

/-- The bit shifted in (R372): zero or the sign, the bit shifted out, zero, or M. -/
def shiftIn (ty : ShiftType) (sign out m : Bool) : Bool :=
  match ty with
  | .arith => sign
  | .rot => out
  | .zin => false
  | .lin => m

/-- One step of a shift: the register and M (R373). -/
def shiftStep {w : Nat} (ty : ShiftType) (right : Bool) (r : BitVec w) (m : Bool) : BitVec w × Bool :=
  if right then
    (setBit (r >>> 1) (w - 1) (shiftIn ty r.msb (r.getLsbD 0) m), r.getLsbD 0)
  else
    (setBit (r <<< 1) 0 (shiftIn ty false r.msb m), r.msb)

/-- `n` steps of a shift (R373). -/
def shiftTimes {w : Nat} (ty : ShiftType) (right : Bool) : Nat → BitVec w → Bool → BitVec w × Bool
  | 0, r, m => (r, m)
  | n + 1, r, m => shiftTimes ty right n (shiftStep ty right r m).1 (shiftStep ty right r m).2

/-- A whole shift instruction: the register and M afterwards (R373; log 22). -/
def shiftWordBy {w : Nat} (ty : ShiftType) (cnt : BitVec 6) (r : BitVec w) (m : Bool) : BitVec w × Bool :=
  shiftTimes ty (shiftRight cnt) (shiftSteps cnt) r m

end Sys2Proof.Machine
end

