-- ==== Sys2Proof/Machine/Operands.lean ====
section
/-! DEFINITION. The operand forms: effective addresses, register operands, byte and bit positions, block and floating
operands, STS as a word. -/

namespace Sys2Proof.Machine

open Sys2Proof Sys2Proof.Config

/-! ## Effective addresses (40_memory_reference.md R200 to R202) -/

/-- The sum before indirection and indexing: of B, of 0 in mode 4, or of P, and the displacement (R200). -/
def State.baseAddr (s : State) (m : AddrMode) : Word :=
  (if m.b then s.cur.b else if m.x && !m.i then 0 else s.cur.p) + sext8 m.disp

/-- Post-indexing by X (R200). -/
def State.indexed (s : State) (m : AddrMode) (a : Word) : Word := if m.x then a + s.cur.x else a

/-- The effective address; the indirect word is one read (R200, R201). -/
def effAddr (m : AddrMode) (s : State) : Res Word :=
  if m.i then (memRead (s.baseAddr m) s).bind fun a s => .ok (s.indexed m a) s
  else .ok (s.indexed m (s.baseAddr m)) s

/-- The word at the effective address. -/
def operandWord (m : AddrMode) (s : State) : Res Word := (effAddr m s).bind memRead

/-- A conditional jump: P-relative and direct (41_sequencing.md R252). -/
def RegSet.jumpIf (r : RegSet) (cond : Bool) (disp : BitVec 8) : RegSet :=
  if cond then { r with p := r.p + sext8 disp } else r.advance

/-- "Positive" for JAP and JPC: the sign bit is 0, and at 0 the parameter decides (R253, R257). -/
def State.positive (s : State) (v : Word) : Bool := !v.msb && (v != 0 || s.params.japZeroJumps)

/-! ## Register operands (42_register_ops.md R300, R301) -/

/-- The source operand: CM1 takes its one's complement (R301). -/
def RegSet.source (r : RegSet) (cm1 : Bool) (sr : RegCode) : Word := if cm1 then ~~~(r.get sr) else r.get sr

/-- The destination operand: CLD takes 0 instead (R301). -/
def RegSet.dest (r : RegSet) (cld : Bool) (dr : RegCode) : Word := if cld then 0 else r.get dr

/-- The double accumulator, A high (R6). -/
def RegSet.ad (r : RegSet) : BitVec 32 := r.a ++ r.d

/-- Write the double accumulator. -/
def RegSet.setAd (r : RegSet) (v : BitVec 32) : RegSet :=
  { r with a := v.extractLsb' 16 16, d := v.extractLsb' 0 16 }

/-! ## STS as a word (10_state.md R41) -/

/-- STS of a level as a 16-bit value: the level's flags, PIL, an open bit 12, SEXI, PONI, IONI (R41; log 16). Its
reader counts one open value as drawn. -/
def State.stsWord (s : State) (lv : Level) : Word :=
  bit s.ioni ++ bit s.poni ++ bit s.sexi ++ (s.anyWord 0).extractLsb' 12 1 ++ s.pil ++ (s.level lv).sts

/-! ## Bits (43_bit_shift.md R350; 20_memory.md R111) -/

/-- The addressed bit of a bit instruction: code 0 is STS (R350). -/
def RegSet.bitOf (r : RegSet) (bn : BitVec 4) (dr : RegCode) : Bool :=
  if dr = .zero then r.sts.getLsbD bn.toNat else (r.get dr).getLsbD bn.toNat

/-- Write the addressed bit (R350). -/
def RegSet.setBitOf (r : RegSet) (bn : BitVec 4) (dr : RegCode) (v : Bool) : RegSet :=
  if dr = .zero then { r with sts := setBit r.sts bn.toNat v } else r.set dr (setBit (r.get dr) bn.toNat v)

/-- Bits 8 to 15 of STS cannot be operated on (R352; log 23). -/
def stsUpper (bn : BitVec 4) (dr : RegCode) : Bool := dr = .zero && 8 ≤ bn.toNat

/-- The word of a bit array that holds bit `n` (R111). -/
def bitWordAddr (start n : Word) : Word := start + n >>> 4

/-- The position of bit `n` in its word (R111). -/
def bitPos (n : Word) : Nat := n.toNat % 16

/-! ## Bytes by base and index (20_memory.md R110) -/

/-- `ByteAddr`: the index is unsigned (R110). -/
def byteAddr (base idx : Word) : Word := base + idx >>> 1

/-- `ByteSel`: an odd index is the right byte (R110). -/
def byteSel (idx : Word) : Bool := idx.getLsbD 0

/-! ## Byte positions and fields (44_byte_block_decimal.md R405, R430) -/

/-- A byte position: a word address and a half, `true` being the right one (R405). -/
structure BytePos where
  addr : Word
  half : Bool
deriving DecidableEq, Repr

/-- The position one byte further (R405). -/
def BytePos.next (p : BytePos) : BytePos := if p.half then ⟨p.addr + 1, false⟩ else ⟨p.addr, true⟩

/-- The position `n` bytes further. -/
def BytePos.advance : Nat → BytePos → BytePos
  | 0, p => p
  | n + 1, p => BytePos.advance n p.next

/-- The byte at a position. -/
def readByte (p : BytePos) (s : State) : Res Byte := (memRead p.addr s).bind fun w s => .ok (loadByte w p.half) s

/-- Store a byte: a read and a write of its word (R83). -/
def writeByteAt (p : BytePos) (v : Byte) (s : State) : Res Unit :=
  (memRead p.addr s).bind fun w s => memWrite p.addr (storeByte w p.half v) s

/-- `n` bytes in ascending order. -/
def readBytes : Nat → BytePos → State → Res (List Byte)
  | 0, _, s => .ok [] s
  | n + 1, p, s => (readByte p s).bind fun b s => (readBytes n p.next s).bind fun bs s => .ok (b :: bs) s

/-- Store bytes in ascending order. -/
def writeBytes : BytePos → List Byte → State → Res Unit
  | _, [], s => .ok () s
  | p, b :: bs, s => (writeByteAt p b s).bind fun _ s => writeBytes p.next bs s

/-- The position a descriptor names: bit 15 of the second word is the half (R405, R430). -/
def descrPos (d1 d2 : Word) : BytePos := ⟨d1, d2.msb⟩

/-- The byte count of a block descriptor: bits BLOCK_LEN_BITS - 1 to 0 (R405). -/
def blockLen (bits : Nat) (d2 : Word) : Nat := d2.toNat % 2 ^ bits

/-- A block descriptor's second word with the half and the count replaced; the bits between are kept (R405; log 24). -/
def setBlockDescr (bits : Nat) (d2 : Word) (half : Bool) (n : Nat) : Word :=
  setBit (BitVec.ofNat 16 (d2.toNat / 2 ^ bits * 2 ^ bits + n % 2 ^ bits)) 15 half

/-- The source block (A, D) one byte further, its count one less (R409). -/
def RegSet.sourceMoved (r : RegSet) (bits : Nat) : RegSet :=
  { r with
    a := (descrPos r.a r.d).next.addr
    d := setBlockDescr bits r.d (descrPos r.a r.d).next.half (blockLen bits r.d - 1) }

/-- The destination block (X, T) one byte further, its count one less (R409). -/
def RegSet.destMoved (r : RegSet) (bits : Nat) : RegSet :=
  { r with
    x := (descrPos r.x r.t).next.addr
    t := setBlockDescr bits r.t (descrPos r.x r.t).next.half (blockLen bits r.t - 1) }

/-! ## Floating operands (45_floating.md R450) -/

/-- The 32-bit floating accumulator A : D. -/
def RegSet.fa32 (r : RegSet) : BitVec 32 := r.ad

/-- The 48-bit floating accumulator T : A : D. -/
def RegSet.fa48 (r : RegSet) : BitVec 48 := r.t ++ r.a ++ r.d

/-- Write the 32-bit floating accumulator; T is not written (R450). -/
def RegSet.setFa32 (r : RegSet) (v : BitVec 32) : RegSet := r.setAd v

/-- Write the 48-bit floating accumulator. -/
def RegSet.setFa48 (r : RegSet) (v : BitVec 48) : RegSet :=
  { r with t := v.extractLsb' 32 16, a := v.extractLsb' 16 16, d := v.extractLsb' 0 16 }

/-- The two words of a 32-bit floating operand. -/
def read32 (ea : Word) (s : State) : Res (BitVec 32) :=
  (memRead ea s).bind fun h s => (memRead (ea + 1) s).bind fun l s => .ok (h ++ l) s

/-- The three words of a 48-bit floating operand. -/
def read48 (ea : Word) (s : State) : Res (BitVec 48) :=
  (memRead ea s).bind fun h s => (memRead (ea + 1) s).bind fun m s => (memRead (ea + 2) s).bind fun l s =>
    .ok (h ++ m ++ l) s

/-! ## The page-table entry of a record (48_sintran_control.md R575, R610) -/

/-- 0o177000 | 2n, the doubling modulo 2^16 (R575). -/
def entryAddr (n : Word) : Word := 0o177000 ||| n <<< 1

end Sys2Proof.Machine
end

