-- ==== Sys2Proof/Machine/BitShift.lean ====
section
/-! DEFINITION. The bit instructions and the shift instructions (43_bit_shift.md). -/

namespace Sys2Proof.Machine

open Sys2Proof

/-- A bit instruction: `f` gives the addressed bit's new value, if it writes one, and K's new value, if it writes one,
from the bit and K. The bit is written before K; a write to a bit of P is a jump (R350, R352, R355). -/
def bitOp (f : Bool → Bool → Option Bool × Option Bool) (bn : BitVec 4) (dr : RegCode) (s : State) : Res Unit :=
  if stsUpper bn dr then .stop (.stsUpperBit bn)
  else
    let r := s.cur
    let out := f (r.bitOf bn dr) r.k
    let r := match out.1 with | none => r | some v => r.setBitOf bn dr v
    let r := match out.2 with | none => r | some v => r.setK v
    .ok () (s.setCur (if out.1.isSome && dr = .p then r else r.advance))

/-- A bit skip: `f` gives the condition from the addressed bit and K (R354). -/
def bitSkip (f : Bool → Bool → Bool) (bn : BitVec 4) (dr : RegCode) (s : State) : Res Unit :=
  if stsUpper bn dr then .stop (.stsUpperBit bn)
  else .ok () (s.setCur (if f (s.cur.bitOf bn dr) s.cur.k then s.cur.skip else s.cur.advance))

/-- BSET ZRO (R353). -/
def execBsetZro (bn : BitVec 4) (dr : RegCode) (s : State) : Host.Outcome State Fault Refusal :=
  finish s (bitOp (fun _ _ => (some false, none)) bn dr s)

/-- BSET ONE (R353). -/
def execBsetOne (bn : BitVec 4) (dr : RegCode) (s : State) : Host.Outcome State Fault Refusal :=
  finish s (bitOp (fun _ _ => (some true, none)) bn dr s)

/-- BSET BCM: complement the bit (R353). -/
def execBsetBcm (bn : BitVec 4) (dr : RegCode) (s : State) : Host.Outcome State Fault Refusal :=
  finish s (bitOp (fun b _ => (some (!b), none)) bn dr s)

/-- BSET BAC: the bit becomes K (R353). -/
def execBsetBac (bn : BitVec 4) (dr : RegCode) (s : State) : Host.Outcome State Fault Refusal :=
  finish s (bitOp (fun _ k => (some k, none)) bn dr s)

/-- BSKP ZRO (R354). -/
def execBskpZro (bn : BitVec 4) (dr : RegCode) (s : State) : Host.Outcome State Fault Refusal :=
  finish s (bitSkip (fun b _ => !b) bn dr s)

/-- BSKP ONE (R354). -/
def execBskpOne (bn : BitVec 4) (dr : RegCode) (s : State) : Host.Outcome State Fault Refusal :=
  finish s (bitSkip (fun b _ => b) bn dr s)

/-- BSKP BCM: skip if the bit differs from K (R354; log 25). -/
def execBskpBcm (bn : BitVec 4) (dr : RegCode) (s : State) : Host.Outcome State Fault Refusal :=
  finish s (bitSkip (fun b k => b != k) bn dr s)

/-- BSKP BAC: skip if the bit equals K (R354). -/
def execBskpBac (bn : BitVec 4) (dr : RegCode) (s : State) : Host.Outcome State Fault Refusal :=
  finish s (bitSkip (fun b k => b == k) bn dr s)

/-- BSTC: the bit becomes not K, then K becomes 1 (R355). -/
def execBstc (bn : BitVec 4) (dr : RegCode) (s : State) : Host.Outcome State Fault Refusal :=
  finish s (bitOp (fun _ k => (some (!k), some true)) bn dr s)

/-- BSTA: the bit becomes K, then K becomes 0 (R356). -/
def execBsta (bn : BitVec 4) (dr : RegCode) (s : State) : Host.Outcome State Fault Refusal :=
  finish s (bitOp (fun _ k => (some k, some false)) bn dr s)

/-- BLDC: K becomes not the bit (R357). -/
def execBldc (bn : BitVec 4) (dr : RegCode) (s : State) : Host.Outcome State Fault Refusal :=
  finish s (bitOp (fun b _ => (none, some (!b))) bn dr s)

/-- BLDA: K becomes the bit (R358). -/
def execBlda (bn : BitVec 4) (dr : RegCode) (s : State) : Host.Outcome State Fault Refusal :=
  finish s (bitOp (fun b _ => (none, some b)) bn dr s)

/-- BANC: K becomes not the bit, and K (R359). -/
def execBanc (bn : BitVec 4) (dr : RegCode) (s : State) : Host.Outcome State Fault Refusal :=
  finish s (bitOp (fun b k => (none, some (!b && k))) bn dr s)

/-- BAND: K becomes the bit and K (R360). -/
def execBand (bn : BitVec 4) (dr : RegCode) (s : State) : Host.Outcome State Fault Refusal :=
  finish s (bitOp (fun b k => (none, some (b && k))) bn dr s)

/-- BORC: K becomes not the bit, or K (R361). -/
def execBorc (bn : BitVec 4) (dr : RegCode) (s : State) : Host.Outcome State Fault Refusal :=
  finish s (bitOp (fun b k => (none, some (!b || k))) bn dr s)

/-- BORA: K becomes the bit or K (R362). -/
def execBora (bn : BitVec 4) (dr : RegCode) (s : State) : Host.Outcome State Fault Refusal :=
  finish s (bitOp (fun b k => (none, some (b || k))) bn dr s)

/-- SHT: shift T (R374). -/
def execSht (ty : ShiftType) (cnt : BitVec 6) (s : State) : Host.Outcome State Fault Refusal :=
  finish s (.ok () (s.setCur
    (({ s.cur with t := (shiftWordBy ty cnt s.cur.t s.cur.m).1 }).setM (shiftWordBy ty cnt s.cur.t s.cur.m).2).advance))

/-- SHD: shift D (R375). -/
def execShd (ty : ShiftType) (cnt : BitVec 6) (s : State) : Host.Outcome State Fault Refusal :=
  finish s (.ok () (s.setCur
    (({ s.cur with d := (shiftWordBy ty cnt s.cur.d s.cur.m).1 }).setM (shiftWordBy ty cnt s.cur.d s.cur.m).2).advance))

/-- SHA: shift A (R376). -/
def execSha (ty : ShiftType) (cnt : BitVec 6) (s : State) : Host.Outcome State Fault Refusal :=
  finish s (.ok () (s.setCur
    (({ s.cur with a := (shiftWordBy ty cnt s.cur.a s.cur.m).1 }).setM (shiftWordBy ty cnt s.cur.a s.cur.m).2).advance))

/-- SAD: shift A and D connected (R377). -/
def execSad (ty : ShiftType) (cnt : BitVec 6) (s : State) : Host.Outcome State Fault Refusal :=
  finish s (.ok () (s.setCur
    ((s.cur.setAd (shiftWordBy ty cnt s.cur.ad s.cur.m).1).setM (shiftWordBy ty cnt s.cur.ad s.cur.m).2).advance))

end Sys2Proof.Machine
end

