-- ==== Sys2Proof/Machine/ByteBlock.lean ====
section
/-! DEFINITION. Bytes, byte blocks and the word block move (44_byte_block_decimal.md R400 to R422). -/

namespace Sys2Proof.Machine

open Sys2Proof Sys2Proof.Config

/-- LBYT: A <- the byte addressed by T and X, zero extended (R401). -/
def execLbyt (s : State) : Host.Outcome State Fault Refusal :=
  finish s <| (readByte ⟨byteAddr s.cur.t s.cur.x, byteSel s.cur.x⟩ s).bind fun v s =>
    .ok () (s.setCur { s.cur with a := v.setWidth 16 }.advance)

/-- SBYT: A[7:0] into the byte addressed by T and X (R402). -/
def execSbyt (s : State) : Host.Outcome State Fault Refusal :=
  finish s <| (writeByteAt ⟨byteAddr s.cur.t s.cur.x, byteSel s.cur.x⟩ (rightByte s.cur.a) s).bind fun _ s =>
    .ok () s.advance

/-- Fill `n` bytes of the destination block with A[7:0], X and T following the progress, so that a fault leaves them
at the bytes done (R406, R409). -/
def fillBytes : Nat → State → Res Unit
  | 0, s => .ok () s
  | n + 1, s => (writeByteAt (descrPos s.cur.x s.cur.t) (rightByte s.cur.a) s).bind fun _ s =>
      fillBytes n (s.setCur (s.cur.destMoved s.params.blockLenBits))

/-- BFILL (R406). -/
def execBfill (s : State) : Host.Outcome State Fault Refusal :=
  finish s <| (fillBytes (blockLen s.params.blockLenBits s.cur.t) s).bind fun _ s => .ok () s.advance

/-- The number of bytes MOVB and MOVBF move: the smaller of the two lengths (R407). -/
def State.moveCount (s : State) : Nat :=
  Nat.min (blockLen s.params.blockLenBits s.cur.d) (blockLen s.params.blockLenBits s.cur.t)

/-- Both blocks one byte further (R409). -/
def State.bothMoved (s : State) : State :=
  s.setCur ((s.cur.sourceMoved s.params.blockLenBits).destMoved s.params.blockLenBits)

/-- The lengths after the last of `n` bytes: the source's 0, the destination's n; then P <- P + 1 (R407). -/
def State.moveDone (s : State) (n : Nat) : State :=
  s.setCur { s.cur with
    d := setBlockDescr s.params.blockLenBits s.cur.d s.cur.d.msb 0
    t := setBlockDescr s.params.blockLenBits s.cur.t s.cur.t.msb n }.advance

/-- The buffered bytes into the destination block, the registers following the progress (R407, R409). -/
def moveBuffered : List Byte → State → Res Unit
  | [], s => .ok () s
  | b :: bs, s => (writeByteAt (descrPos s.cur.x s.cur.t) b s).bind fun _ s => moveBuffered bs s.bothMoved

/-- Bytes moved one at a time, each read immediately followed by its write (R408, R409). -/
def moveForward : Nat → State → Res Unit
  | 0, s => .ok () s
  | n + 1, s => (readByte (descrPos s.cur.a s.cur.d) s).bind fun b s =>
      (writeByteAt (descrPos s.cur.x s.cur.t) b s).bind fun _ s => moveForward n s.bothMoved

/-- MOVB: as if through a buffer (R407; log 26). -/
def execMovb (s : State) : Host.Outcome State Fault Refusal :=
  finish s <| (readBytes s.moveCount (descrPos s.cur.a s.cur.d) s).bind fun bs s1 =>
    (moveBuffered bs s1).bind fun _ s2 => .ok () (s2.moveDone s.moveCount)

/-- MOVBF: byte by byte (R408). -/
def execMovbf (s : State) : Host.Outcome State Fault Refusal :=
  finish s <| (moveForward s.moveCount s).bind fun _ s1 => .ok () (s1.moveDone s.moveCount)

/-! ## MOVEW (R420, R421) -/

/-- An end of a word block move. -/
inductive MoveEnd where
  | pt | apt | phys
deriving DecidableEq, Repr

/-- Read a word of the source, addressed by A and D (R420). -/
def MoveEnd.readWord (e : MoveEnd) (s : State) : Res Word :=
  match e with
  | .pt => memReadVia .viaPt s.cur.d s
  | .apt => memReadVia .viaApt s.cur.d s
  | .phys => physRead s.cur.a s.cur.d s

/-- Write a word of the destination, addressed by X and T (R420). -/
def MoveEnd.writeWord (e : MoveEnd) (v : Word) (s : State) : Res Unit :=
  match e with
  | .pt => memWriteVia .viaPt s.cur.t v s
  | .apt => memWriteVia .viaApt s.cur.t v s
  | .phys => physWrite s.cur.x s.cur.t v s

/-- The registers after one word: a physical end carries into its bank register; P goes on when L becomes 0, else the
same MOVEW runs again (R420). -/
def RegSet.wordMoved (r : RegSet) (src dst : MoveEnd) : RegSet :=
  { r with
    d := r.d + 1
    a := if src = .phys ∧ r.d + 1 = 0 then r.a + 1 else r.a
    t := r.t + 1
    x := if dst = .phys ∧ r.t + 1 = 0 then r.x + 1 else r.x
    l := r.l - 1
    p := if r.l - 1 = 0 then r.p + 1 else r.p }

/-- One step of MOVEW: nothing for L = 0 or L > 2048, else one word (R420). -/
def moveStep (src dst : MoveEnd) (s : State) : Res Unit :=
  if s.cur.l = 0 ∨ 2048 < s.cur.l.toNat then .ok () s.advance
  else (src.readWord s).bind fun v s => (dst.writeWord v s).bind fun _ s =>
    .ok () (s.setCur (s.cur.wordMoved src dst))

/-- MOVEW 0: PT to PT (R420). -/
def execMovew0 (s : State) : Host.Outcome State Fault Refusal := finish s (moveStep .pt .pt s)

/-- MOVEW 1: PT to APT (R420). -/
def execMovew1 (s : State) : Host.Outcome State Fault Refusal := finish s (moveStep .pt .apt s)

/-- MOVEW 2: PT to physical memory, privileged (R420). -/
def execMovew2 (s : State) : Host.Outcome State Fault Refusal := finish s (privileged s (moveStep .pt .phys s))

/-- MOVEW 3: APT to PT (R420). -/
def execMovew3 (s : State) : Host.Outcome State Fault Refusal := finish s (moveStep .apt .pt s)

/-- MOVEW 4: APT to APT (R420). -/
def execMovew4 (s : State) : Host.Outcome State Fault Refusal := finish s (moveStep .apt .apt s)

/-- MOVEW 5: APT to physical memory, privileged (R420). -/
def execMovew5 (s : State) : Host.Outcome State Fault Refusal := finish s (privileged s (moveStep .apt .phys s))

/-- MOVEW 6: physical memory to PT, privileged (R420). -/
def execMovew6 (s : State) : Host.Outcome State Fault Refusal := finish s (privileged s (moveStep .phys .pt s))

/-- MOVEW 7: physical memory to APT, privileged (R420). -/
def execMovew7 (s : State) : Host.Outcome State Fault Refusal := finish s (privileged s (moveStep .phys .apt s))

/-- MOVEW 0o10: physical memory to physical memory, privileged (R420). -/
def execMovew10 (s : State) : Host.Outcome State Fault Refusal := finish s (privileged s (moveStep .phys .phys s))

end Sys2Proof.Machine
end

