-- ==== Sys2Proof/Machine/Decimal.lean ====
section
/-! DEFINITION. The six decimal instructions (44_byte_block_decimal.md R430 to R441), in the spec's reading of them
(log 27). -/

namespace Sys2Proof.Machine

open Sys2Proof Sys2Proof.Config

/-! ## Descriptors (R430) -/

/-- A decimal operand: its first byte, its field length, and its second descriptor word. -/
structure DecimalOp where
  pos : BytePos
  len : Nat
  d2 : Word
deriving DecidableEq, Repr

/-- A decimal operand from its two descriptor words (R430). -/
def decimalOp (d1 d2 : Word) : DecimalOp := ⟨descrPos d1 d2, (d2.extractLsb' 0 5).toNat, d2⟩

/-- The first operand: A and D (R430). -/
def RegSet.op1 (r : RegSet) : DecimalOp := decimalOp r.a r.d

/-- The second operand: X and T (R430). -/
def RegSet.op2 (r : RegSet) : DecimalOp := decimalOp r.x r.t

/-- Bit 13: the result is written as unsigned (R435). -/
def DecimalOp.unsigned (o : DecimalOp) : Bool := o.d2.getLsbD 13

/-- The ASCII sign representation, bits 13-11 (R430). -/
def DecimalOp.asciiCode (o : DecimalOp) : BitVec 3 := o.d2.extractLsb' 11 3

/-- The rounding bit, bit 10 (R430). -/
def DecimalOp.rounding (o : DecimalOp) : Bool := o.d2.getLsbD 10

/-- The position of the decimal point, bits 9-5, unsigned (R430). -/
def DecimalOp.point (o : DecimalOp) : Nat := (o.d2.extractLsb' 5 5).toNat

/-- A decimal number as it stands in a field: its sign and its digits, most significant first. A negative zero keeps
its sign here. -/
structure Decimal where
  neg : Bool
  digits : List Nat
deriving DecidableEq, Repr

/-- The number that digits form, most significant first. -/
def digitsValue (ds : List Nat) : Nat := ds.foldl (fun v d => 10 * v + d) 0

/-- The value of a decimal number. -/
def Decimal.value (d : Decimal) : Int := if d.neg then -(digitsValue d.digits : Int) else digitsValue d.digits

/-- The last `n` decimal digits of a number, most significant first. -/
def toDigits : Nat → Nat → List Nat
  | 0, _ => []
  | n + 1, v => toDigits n (v / 10) ++ [v % 10]

/-! ## BCD fields (R431) -/

/-- The number of bytes a field of `n` nibbles takes. -/
def bcdBytes (n : Nat) : Nat := (n + 1) / 2

/-- The two nibbles of a byte, the high one first (R431). -/
def byteNibbles (b : Byte) : List (BitVec 4) := [b.extractLsb' 4 4, b.extractLsb' 0 4]

/-- The bytes of an even number of nibbles. -/
def nibbleBytes : List (BitVec 4) → List Byte
  | h :: l :: rest => (h ++ l) :: nibbleBytes rest
  | _ => []

/-- The nibbles of a field: the last `n` of its bytes' nibbles (R431). -/
def fieldNibbles (n : Nat) (bytes : List Byte) : List (BitVec 4) := (bytes.flatMap byteNibbles).drop (n % 2)

/-- Read a BCD field: the nibbles digits and then a sign, or the index of the first illegal code (R431). -/
def parseBcd : List (BitVec 4) → Except Nat Decimal
  | [] => .ok ⟨false, []⟩
  | [sg] => if sg.toNat < 10 then .error 0 else .ok ⟨sg = 0o13 || sg = 0o15, []⟩
  | d :: rest =>
    if 9 < d.toNat then .error 0
    else
      match parseBcd rest with
      | .ok v => .ok { v with digits := d.toNat :: v.digits }
      | .error k => .error (k + 1)

/-- The byte position of nibble `k` of a field (R431). -/
def DecimalOp.nibblePos (o : DecimalOp) (k : Nat) : BytePos := BytePos.advance ((o.len % 2 + k) / 2) o.pos

/-- The bytes of a BCD operand; none for an empty one (R431). -/
def readBcd (o : DecimalOp) (s : State) : Res (List Byte) := readBytes (bcdBytes o.len) o.pos s

/-- The decimal number of a BCD operand's bytes, or the position of its first illegal code. An empty operand is a
positive zero (R431). Bits 12-11 of the descriptor are not looked at: that R430's refusal of ASCII codes 101, 110 and
111 is for ASCII operands alone is the model's choice (log 55). -/
def DecimalOp.bcd (o : DecimalOp) (bytes : List Byte) : Except BytePos Decimal :=
  match parseBcd (fieldNibbles o.len bytes) with
  | .ok v => .ok v
  | .error k => .error (o.nibblePos k)

/-- The sign nibble of a result: 0o17 for an unsigned one, else 0o15 or 0o14 (R431, R435). -/
def signNibble (unsigned neg : Bool) : BitVec 4 := if unsigned then 0o17 else if neg then 0o15 else 0o14

/-- A fault while a result is written is not decided (R771; log 28). -/
def resultWrite (r : Res Unit) : Res Unit :=
  match r with
  | .ok u s => .ok u s
  | .trap c _ => .stop (.decimalResultFault c)
  | .stop x => .stop x

/-- Write the nibbles of a field; the high nibble of the first byte of an odd field is kept (R431). -/
def writeNibbles (o : DecimalOp) (ns : List (BitVec 4)) (s : State) : Res Unit :=
  resultWrite <|
    if o.len % 2 = 1 then (readByte o.pos s).bind fun b s => writeBytes o.pos (nibbleBytes (b.extractLsb' 4 4 :: ns)) s
    else writeBytes o.pos (nibbleBytes ns) s

/-- Write a number into a BCD field of length at least 1: digits with leading zeros, then the sign (R435). -/
def writeBcd (o : DecimalOp) (m : Nat) (sg : BitVec 4) (s : State) : Res Unit :=
  writeNibbles o ((toDigits (o.len - 1) m).map (BitVec.ofNat 4) ++ [sg]) s

/-- An overflowed field holds any value (R435; log 10). -/
def writeOpenField (o : DecimalOp) (s : State) : Res Unit :=
  writeNibbles o ((List.range o.len).map fun i => (s.anyWord i).extractLsb' 0 4) (s.drawn o.len)

/-! ## Ends (R433, R434) -/

/-- The error code in D[4:0] (R434). -/
def RegSet.decimalError (r : RegSet) (code : BitVec 5) : RegSet := { r with d := r.d.extractLsb' 5 11 ++ code }

/-- An illegal code in op1: A and D[15] point to it; the error return (R433, R434). -/
def State.illegalOp1 (s : State) (p : BytePos) : State :=
  s.setCur ({ s.cur with a := p.addr, d := setBit s.cur.d 15 p.half }.decimalError 2).advance

/-- An illegal code in op2; the error return (R433, R434). -/
def State.illegalOp2 (s : State) : State := s.setCur (s.cur.decimalError 2).advance

/-- Overflow; the error return (R433, R434). -/
def State.decimalOverflow (s : State) : State := s.setCur (s.cur.decimalError 3).advance

/-- No error: the error return is skipped (R433). -/
def State.decimalDone (s : State) : State := s.setCur s.cur.skip

/-- Both operands read and checked, op1 first, before anything is written (R434). -/
def withOperands (s : State) (f : Decimal → Decimal → State → Res Unit) : Res Unit :=
  (readBcd s.cur.op1 s).bind fun b1 s1 => (readBcd s.cur.op2 s1).bind fun b2 s2 =>
    match s.cur.op1.bcd b1, s.cur.op2.bcd b2 with
    | .error p, _ => .ok () (s2.illegalOp1 p)
    | .ok _, .error _ => .ok () s2.illegalOp2
    | .ok v1, .ok v2 => f v1 v2 s2

/-- Store a sum into op1's field; a zero may have either sign (R435, R436). -/
def storeSum (r : Int) (s : State) : Res Unit :=
  let o := s.cur.op1
  if o.len = 0 then .ok () (if r = 0 then s.decimalDone else s.decimalOverflow)
  else if 10 ^ (o.len - 1) ≤ r.natAbs then (writeOpenField o s).bind fun _ s => .ok () s.decimalOverflow
  else
    (writeBcd o r.natAbs (signNibble o.unsigned (if r = 0 then (s.anyWord 0).getLsbD 0 else r < 0)) (s.drawn 1)).bind
      fun _ s => .ok () s.decimalDone

/-- ADDD (R435). -/
def execAddd (s : State) : Host.Outcome State Fault Refusal :=
  finish s (withOperands s fun v1 v2 s => storeSum (v1.value + v2.value) s)

/-- SUBD (R436). -/
def execSubd (s : State) : Host.Outcome State Fault Refusal :=
  finish s (withOperands s fun v1 v2 s => storeSum (v1.value - v2.value) s)

/-- COMD's result: 0, 1 or -1 (R437). -/
def compareResult (r : Int) : Word := if r = 0 then 0 else if 0 < r then 1 else 0o177777

/-- COMD (R437). -/
def execComd (s : State) : Host.Outcome State Fault Refusal :=
  finish s (withOperands s fun v1 v2 s =>
    .ok () (s.setCur { s.cur with a := compareResult (v1.value - v2.value) }.skip))

/-! ## SHDE (R440) -/

/-- The shifted magnitude: to the right by k places, rounded if asked, or to the left (R440). -/
def shiftedMagnitude (v : Nat) (k : Int) (rounding : Bool) : Nat :=
  if 0 < k then
    v / 10 ^ k.toNat + (if rounding && 5 ≤ v / 10 ^ (k.toNat - 1) % 10 then 1 else 0)
  else v * 10 ^ (-k).toNat

/-- Store a shifted operand into op2's field (R440; log 29). -/
def storeShifted (v : Decimal) (s : State) : Res Unit :=
  let o := s.cur.op2
  let m := shiftedMagnitude (digitsValue v.digits) ((o.point : Int) - s.cur.op1.point) o.rounding
  if o.len = 0 then .ok () (if m = 0 then s.decimalDone else s.decimalOverflow)
  else if 10 ^ (o.len - 1) ≤ m then (writeOpenField o s).bind fun _ s => .ok () s.decimalOverflow
  else (writeBcd o m (signNibble o.unsigned v.neg) s).bind fun _ s => .ok () s.decimalDone

/-- SHDE (R440). -/
def execShde (s : State) : Host.Outcome State Fault Refusal :=
  finish s <| (readBcd s.cur.op1 s).bind fun b s1 =>
    match s.cur.op1.bcd b with
    | .error p => .ok () (s1.illegalOp1 p)
    | .ok v => storeShifted v s1

/-! ## ASCII operands (R432) -/

/-- The ASCII code of a digit (R432). -/
def asciiDigit (d : Nat) : Byte := BitVec.ofNat 8 (0o60 + d)

/-- The digit of an ASCII code (R432). -/
def digitOf (b : Byte) : Option Nat := if 0o60 ≤ b.toNat && b.toNat ≤ 0o71 then some (b.toNat - 0o60) else none

/-- The code of a digit with an embedded sign (R432, Table 5). -/
def embeddedDigit (neg : Bool) (d : Nat) : Byte :=
  match neg, d with
  | false, 0 => 0o173
  | false, d => BitVec.ofNat 8 (0o100 + d)
  | true, 0 => 0o175
  | true, d => BitVec.ofNat 8 (0o111 + d)

/-- The sign and digit of an embedded code; a plain digit is a positive one (R432, R438; log 30). -/
def embeddedOf (b : Byte) : Option (Bool × Nat) :=
  if b = 0o173 then some (false, 0)
  else if b = 0o175 then some (true, 0)
  else if 0o101 ≤ b.toNat && b.toNat ≤ 0o111 then some (false, b.toNat - 0o100)
  else if 0o112 ≤ b.toNat && b.toNat ≤ 0o122 then some (true, b.toNat - 0o111)
  else (digitOf b).map fun d => (false, d)

/-- The sign of a separate sign byte (R432). -/
def signOf (b : Byte) : Option Bool := if b = 0o53 then some false else if b = 0o55 then some true else none

/-- The separate sign byte (R432). -/
def signByte (neg : Bool) : Byte := if neg then 0o55 else 0o53

/-- What a byte of an ASCII field is. -/
inductive AsciiRole where
  | digit | sign | embedded
deriving DecidableEq, Repr

/-- The roles of the bytes of an ASCII field of `n` bytes, or none for an unassigned code (R430, R432). -/
def asciiRoles (code : BitVec 3) (n : Nat) : Option (List AsciiRole) :=
  match code with
  | 0 => some ((List.replicate (n - 1) AsciiRole.digit ++ [AsciiRole.embedded]).take n)
  | 1 => some ((List.replicate (n - 1) AsciiRole.digit ++ [AsciiRole.sign]).take n)
  | 2 => some ((AsciiRole.embedded :: List.replicate (n - 1) AsciiRole.digit).take n)
  | 3 => some ((AsciiRole.sign :: List.replicate (n - 1) AsciiRole.digit).take n)
  | 4 => some (List.replicate n AsciiRole.digit)
  | _ => none

/-- Read an ASCII field: its sign and digits, or the index of the first illegal byte (R432, R438). -/
def parseAscii : List AsciiRole → List Byte → Except Nat Decimal
  | role :: roles, b :: bs =>
    match (match role with
      | .digit => (digitOf b).map fun d => (false, [d])
      | .sign => (signOf b).map fun n => (n, [])
      | .embedded => (embeddedOf b).map fun e => (e.1, [e.2])) with
    | none => .error 0
    | some (neg, ds) =>
      match parseAscii roles bs with
      | .ok v => .ok ⟨neg || v.neg, ds ++ v.digits⟩
      | .error k => .error (k + 1)
  | _, _ => .ok ⟨false, []⟩

/-- The bytes of an ASCII field: the sign where its role is, the digits in order (R432, R439). -/
def asciiBytes (neg : Bool) : List AsciiRole → List Nat → List Byte
  | [], _ => []
  | .sign :: roles, ds => signByte neg :: asciiBytes neg roles ds
  | .digit :: roles, ds => asciiDigit (ds.headD 0) :: asciiBytes neg roles ds.tail
  | .embedded :: roles, ds => embeddedDigit neg (ds.headD 0) :: asciiBytes neg roles ds.tail

/-- The low-order `n` digits with zeros in front (R438, R439). -/
def lowDigits (n : Nat) (ds : List Nat) : List Nat := toDigits n (digitsValue ds)

/-- The end of PACK and UPACK: overflow if a non-zero digit did not fit into `n` digits (R438, R439). -/
def State.packEnd (s : State) (n : Nat) (ds : List Nat) : State :=
  if 10 ^ n ≤ digitsValue ds then s.decimalOverflow else s.decimalDone

/-- Store a number as BCD into op2's field, truncated; an empty field is not touched (R438). -/
def storePacked (v : Decimal) (s : State) : Res Unit :=
  let o := s.cur.op2
  if o.len = 0 then .ok () (s.packEnd 0 v.digits)
  else
    (writeBcd o (digitsValue v.digits) (signNibble (o.unsigned || s.cur.op1.unsigned) v.neg) s).bind fun _ s =>
      .ok () (s.packEnd (o.len - 1) v.digits)

/-- PACK (R438). A code that is not assigned is refused before op1 is read (log 56). -/
def execPack (s : State) : Host.Outcome State Fault Refusal :=
  finish s <|
    match asciiRoles s.cur.op1.asciiCode s.cur.op1.len with
    | none => .stop (.asciiCodeUnassigned s.cur.op1.asciiCode)
    | some roles =>
      (readBytes s.cur.op1.len s.cur.op1.pos s).bind fun bytes s1 =>
        match parseAscii roles bytes with
        | .error k => .ok () (s1.illegalOp1 (BytePos.advance k s.cur.op1.pos))
        | .ok v => storePacked v s1

/-- The number of digits an ASCII field holds. -/
def digitRoles (roles : List AsciiRole) : Nat := (roles.filter (· ≠ .sign)).length

/-- Store a number as ASCII into op2's field, truncated (R439). -/
def storeUnpacked (roles : List AsciiRole) (v : Decimal) (s : State) : Res Unit :=
  (resultWrite (writeBytes s.cur.op2.pos (asciiBytes v.neg roles (lowDigits (digitRoles roles) v.digits)) s)).bind
    fun _ s => .ok () (s.packEnd (digitRoles roles) v.digits)

/-- UPACK (R439). A code of op2 that is not assigned is refused before op1 is read and checked: the order is the
model's choice (log 56). -/
def execUpack (s : State) : Host.Outcome State Fault Refusal :=
  finish s <|
    match asciiRoles s.cur.op2.asciiCode s.cur.op2.len with
    | none => .stop (.asciiCodeUnassigned s.cur.op2.asciiCode)
    | some roles =>
      (readBcd s.cur.op1 s).bind fun bytes s1 =>
        match s.cur.op1.bcd bytes with
        | .error p => .ok () (s1.illegalOp1 p)
        | .ok v => storeUnpacked roles v s1

end Sys2Proof.Machine
end

