-- ==== Sys2Proof/Machine/Floating.lean ====
section
/-! DEFINITION. The floating-point instructions (45_floating.md); the arithmetic is the parameter `FpOps` (R451). -/

namespace Sys2Proof.Machine

open Sys2Proof Sys2Proof.Config

/-- One of the four operations in both formats: accumulator, memory operand, TG (R451). -/
structure FloatOp where
  op32 : BitVec 32 → BitVec 32 → Bool → BitVec 32 × Bool
  op48 : BitVec 48 → BitVec 48 → Bool → BitVec 48 × Bool

/-- The accumulator becomes the result, and Z is set if the operation signals an error (R452). -/
def RegSet.floated32 (r : RegSet) (out : BitVec 32 × Bool) : RegSet := ((r.setFa32 out.1).signalError out.2).advance

/-- The same in the 48-bit format (R452). -/
def RegSet.floated48 (r : RegSet) (out : BitVec 48 × Bool) : RegSet := ((r.setFa48 out.1).signalError out.2).advance

/-- FAD, FSB, FMU, FDV: all operand words are read before a register is written (R452). -/
def floatWith (f : FloatOp) (m : AddrMode) (s : State) : Res Unit :=
  (effAddr m s).bind fun ea s =>
    match s.params.fpFormat with
    | .fp32 => (read32 ea s).bind fun v s => .ok () (s.setCur (s.cur.floated32 (f.op32 s.cur.fa32 v s.cur.tg)))
    | .fp48 => (read48 ea s).bind fun v s => .ok () (s.setCur (s.cur.floated48 (f.op48 s.cur.fa48 v s.cur.tg)))

/-- FAD (R453). -/
def execFad (m : AddrMode) (s : State) : Host.Outcome State Fault Refusal :=
  finish s (floatWith ⟨fp32.1.add, fp48.1.add⟩ m s)

/-- FSB (R454). -/
def execFsb (m : AddrMode) (s : State) : Host.Outcome State Fault Refusal :=
  finish s (floatWith ⟨fp32.1.sub, fp48.1.sub⟩ m s)

/-- FMU (R455). -/
def execFmu (m : AddrMode) (s : State) : Host.Outcome State Fault Refusal :=
  finish s (floatWith ⟨fp32.1.mul, fp48.1.mul⟩ m s)

/-- FDV (R456). -/
def execFdv (m : AddrMode) (s : State) : Host.Outcome State Fault Refusal :=
  finish s (floatWith ⟨fp32.1.div, fp48.1.div⟩ m s)

/-- NLZ: the signed number in A, with a scaling factor, into the accumulator (R457). -/
def execNlz (n : BitVec 8) (s : State) : Host.Outcome State Fault Refusal :=
  finish s (.ok () (s.setCur
    (match s.params.fpFormat with
      | .fp32 => s.cur.setFa32 (fp32.1.nlz s.cur.a n s.cur.tg)
      | .fp48 => s.cur.setFa48 (fp48.1.nlz s.cur.a n s.cur.tg)).advance))

/-- DNZ: A <- the fixed-point number, D <- 0, T open on a 48-bit CPU, Z set on overflow (R458; log 10). -/
def execDnz (n : BitVec 8) (s : State) : Host.Outcome State Fault Refusal :=
  finish s (.ok () (
    match s.params.fpFormat with
    | .fp32 =>
      s.setCur (({ s.cur with a := (fp32.1.dnz s.cur.fa32 n s.cur.tg).1, d := 0 }).signalError
        (fp32.1.dnz s.cur.fa32 n s.cur.tg).2).advance
    | .fp48 =>
      (s.drawn 1).setCur (({ s.cur with
        t := s.anyWord 0, a := (fp48.1.dnz s.cur.fa48 n s.cur.tg).1, d := 0 }).signalError
        (fp48.1.dnz s.cur.fa48 n s.cur.tg).2).advance))

end Sys2Proof.Machine
end

