-- ==== Sys2Proof/Machine/MemRef.lean ====
section
/-! DEFINITION. The memory-reference instructions (40_memory_reference.md). -/

namespace Sys2Proof.Machine

open Sys2Proof Sys2Proof.Config

/-- One word stored at the effective address, then P <- P + 1. -/
def storeAt (m : AddrMode) (v : Word) (s : State) : Res Unit :=
  (effAddr m s).bind fun ea s => (memWrite ea v s).bind fun _ s => .ok () s.advance

/-- Words stored from the effective address upwards, then P <- P + 1. -/
def storeListAt (m : AddrMode) (vs : List Word) (s : State) : Res Unit :=
  (effAddr m s).bind fun ea s => (memWriteList ea vs s).bind fun _ s => .ok () s.advance

/-- The operand word taken into the registers, then P <- P + 1. -/
def loadWith (m : AddrMode) (f : Word → RegSet → RegSet) (s : State) : Res Unit :=
  (operandWord m s).bind fun v s => .ok () (s.setCur (f v s.cur).advance)

/-- STZ (R210). -/
def execStz (m : AddrMode) (s : State) : Host.Outcome State Fault Refusal := finish s (storeAt m 0 s)

/-- STA (R211). -/
def execSta (m : AddrMode) (s : State) : Host.Outcome State Fault Refusal := finish s (storeAt m s.cur.a s)

/-- STT (R212). -/
def execStt (m : AddrMode) (s : State) : Host.Outcome State Fault Refusal := finish s (storeAt m s.cur.t s)

/-- STX (R213). -/
def execStx (m : AddrMode) (s : State) : Host.Outcome State Fault Refusal := finish s (storeAt m s.cur.x s)

/-- STD: A, then D (R214). -/
def execStd (m : AddrMode) (s : State) : Host.Outcome State Fault Refusal :=
  finish s (storeListAt m [s.cur.a, s.cur.d] s)

/-- STF: T, A, D on a 48-bit CPU; A, D on a 32-bit one (R215). -/
def execStf (m : AddrMode) (s : State) : Host.Outcome State Fault Refusal :=
  finish s (storeListAt m
    (match s.params.fpFormat with
      | .fp32 => [s.cur.a, s.cur.d]
      | .fp48 => [s.cur.t, s.cur.a, s.cur.d]) s)

/-- MIN: increment the word, and skip if it becomes 0 (R216). -/
def execMin (m : AddrMode) (s : State) : Host.Outcome State Fault Refusal :=
  finish s <| (effAddr m s).bind fun ea s => (memRead ea s).bind fun v s => (memWrite ea (v + 1) s).bind fun _ s =>
    .ok () (s.setCur (if v + 1 = 0 then s.cur.skip else s.cur.advance))

/-- LDA (R220). -/
def execLda (m : AddrMode) (s : State) : Host.Outcome State Fault Refusal :=
  finish s (loadWith m (fun v r => { r with a := v }) s)

/-- LDT (R221). -/
def execLdt (m : AddrMode) (s : State) : Host.Outcome State Fault Refusal :=
  finish s (loadWith m (fun v r => { r with t := v }) s)

/-- LDX: the old X is in the address (R222). -/
def execLdx (m : AddrMode) (s : State) : Host.Outcome State Fault Refusal :=
  finish s (loadWith m (fun v r => { r with x := v }) s)

/-- LDD: no register is written before both words are read (R223). -/
def execLdd (m : AddrMode) (s : State) : Host.Outcome State Fault Refusal :=
  finish s <| (effAddr m s).bind fun ea s => (read32 ea s).bind fun v s => .ok () (s.setCur (s.cur.setAd v).advance)

/-- LDF: three words on a 48-bit CPU, two on a 32-bit one (R224). -/
def execLdf (m : AddrMode) (s : State) : Host.Outcome State Fault Refusal :=
  finish s <| (effAddr m s).bind fun ea s =>
    match s.params.fpFormat with
    | .fp32 => (read32 ea s).bind fun v s => .ok () (s.setCur (s.cur.setFa32 v).advance)
    | .fp48 => (read48 ea s).bind fun v s => .ok () (s.setCur (s.cur.setFa48 v).advance)

/-- ADD (R230, R204). -/
def execAdd (m : AddrMode) (s : State) : Host.Outcome State Fault Refusal :=
  finish s (loadWith m (fun v r => { r with a := addWord r.a v false, sts := addFlags r.a v false r.sts }) s)

/-- SUB: A + ~operand + 1 (R231, R204). -/
def execSub (m : AddrMode) (s : State) : Host.Outcome State Fault Refusal :=
  finish s (loadWith m (fun v r => { r with a := addWord r.a (~~~v) true, sts := addFlags r.a (~~~v) true r.sts }) s)

/-- AND (R232). -/
def execAnd (m : AddrMode) (s : State) : Host.Outcome State Fault Refusal :=
  finish s (loadWith m (fun v r => { r with a := r.a &&& v }) s)

/-- ORA (R233). -/
def execOra (m : AddrMode) (s : State) : Host.Outcome State Fault Refusal :=
  finish s (loadWith m (fun v r => { r with a := r.a ||| v }) s)

/-- MPY: the low 16 bits of the product; O and Q (R234; log 20). -/
def execMpy (m : AddrMode) (s : State) : Host.Outcome State Fault Refusal :=
  finish s (loadWith m (fun v r =>
    { r with a := BitVec.ofInt 16 (mulExact r.a v), sts := overflowFlags (mulOverflow r.a v) r.sts }) s)

end Sys2Proof.Machine
end

