-- ==== Sys2Proof/Machine/RegOps.lean ====
section
/-! DEFINITION. The argument instructions and the register operations (42_register_ops.md). -/

namespace Sys2Proof.Machine

open Sys2Proof

/-- SAB (R308). -/
def execSab (n : BitVec 8) (s : State) : Host.Outcome State Fault Refusal :=
  finish s (.ok () (s.setCur { s.cur with b := sext8 n }.advance))

/-- SAA (R309). -/
def execSaa (n : BitVec 8) (s : State) : Host.Outcome State Fault Refusal :=
  finish s (.ok () (s.setCur { s.cur with a := sext8 n }.advance))

/-- SAT (R310). -/
def execSat (n : BitVec 8) (s : State) : Host.Outcome State Fault Refusal :=
  finish s (.ok () (s.setCur { s.cur with t := sext8 n }.advance))

/-- SAX (R312). -/
def execSax (n : BitVec 8) (s : State) : Host.Outcome State Fault Refusal :=
  finish s (.ok () (s.setCur { s.cur with x := sext8 n }.advance))

/-- AAB (R313, R307). -/
def execAab (n : BitVec 8) (s : State) : Host.Outcome State Fault Refusal :=
  finish s (.ok () (s.setCur
    { s.cur with b := addWord s.cur.b (sext8 n) false, sts := addFlags s.cur.b (sext8 n) false s.cur.sts }.advance))

/-- AAA (R314, R307). -/
def execAaa (n : BitVec 8) (s : State) : Host.Outcome State Fault Refusal :=
  finish s (.ok () (s.setCur
    { s.cur with a := addWord s.cur.a (sext8 n) false, sts := addFlags s.cur.a (sext8 n) false s.cur.sts }.advance))

/-- AAT (R315, R307). -/
def execAat (n : BitVec 8) (s : State) : Host.Outcome State Fault Refusal :=
  finish s (.ok () (s.setCur
    { s.cur with t := addWord s.cur.t (sext8 n) false, sts := addFlags s.cur.t (sext8 n) false s.cur.sts }.advance))

/-- AAX (R317, R307). -/
def execAax (n : BitVec 8) (s : State) : Host.Outcome State Fault Refusal :=
  finish s (.ok () (s.setCur
    { s.cur with x := addWord s.cur.x (sext8 n) false, sts := addFlags s.cur.x (sext8 n) false s.cur.sts }.advance))

/-- The arithmetic register operation: dr <- Add16(d, s, cin), flags, and P (R311). -/
def RegSet.addTo (r : RegSet) (dr : RegCode) (d v : Word) (cin : Bool) : RegSet :=
  { r with sts := addFlags d v cin r.sts }.writeTo dr (addWord d v cin)

/-- RADD in full; ADC and AD1 together are a no-operation (R311, R318). -/
def RegSet.radd (r : RegSet) (adc ad1 cm1 cld : Bool) (sr dr : RegCode) : RegSet :=
  if adc && ad1 then r.advance
  else r.addTo dr (r.dest cld dr) (r.source cm1 sr) (ad1 || (adc && r.c))

/-- RADD (R311). -/
def execRadd (adc ad1 cm1 cld : Bool) (sr dr : RegCode) (s : State) : Host.Outcome State Fault Refusal :=
  finish s (.ok () (s.setCur (s.cur.radd adc ad1 cm1 cld sr dr)))

/-- COPY, RADD CLD (R319). -/
def execCopy (sr dr : RegCode) (s : State) : Host.Outcome State Fault Refusal :=
  finish s (.ok () (s.setCur (s.cur.radd false false false true sr dr)))

/-- RCLR, COPY with source code 0 (R321). -/
def execRclr (dr : RegCode) (s : State) : Host.Outcome State Fault Refusal :=
  finish s (.ok () (s.setCur (s.cur.radd false false false true .zero dr)))

/-- RINC, RADD AD1 with source code 0 (R322). -/
def execRinc (dr : RegCode) (s : State) : Host.Outcome State Fault Refusal :=
  finish s (.ok () (s.setCur (s.cur.radd false true false false .zero dr)))

/-- RDCR, RADD CM1 with source code 0 (R323). -/
def execRdcr (dr : RegCode) (s : State) : Host.Outcome State Fault Refusal :=
  finish s (.ok () (s.setCur (s.cur.radd false false true false .zero dr)))

/-- RSUB, RADD AD1 CM1 (R324). -/
def execRsub (sr dr : RegCode) (s : State) : Host.Outcome State Fault Refusal :=
  finish s (.ok () (s.setCur (s.cur.radd false true true false sr dr)))

/-- EXIT, COPY SL DP (R316). -/
def execExit (s : State) : Host.Outcome State Fault Refusal :=
  finish s (.ok () (s.setCur (s.cur.radd false false false true .l .p)))

/-- SWAP: sr receives the destination operand, then dr the source operand; a write to P is a jump (R320). -/
def execSwap (cm1 cld : Bool) (sr dr : RegCode) (s : State) : Host.Outcome State Fault Refusal :=
  finish s (.ok () (s.setCur
    (if sr = .p ∧ dr ≠ .p then (s.cur.set sr (s.cur.dest cld dr)).set dr (s.cur.source cm1 sr)
    else (s.cur.set sr (s.cur.dest cld dr)).writeTo dr (s.cur.source cm1 sr))))

/-- RAND (R326, R325). -/
def execRand (cm1 cld : Bool) (sr dr : RegCode) (s : State) : Host.Outcome State Fault Refusal :=
  finish s (.ok () (s.setCur (s.cur.writeTo dr (s.cur.dest cld dr &&& s.cur.source cm1 sr))))

/-- REXO (R327, R325). -/
def execRexo (cm1 cld : Bool) (sr dr : RegCode) (s : State) : Host.Outcome State Fault Refusal :=
  finish s (.ok () (s.setCur (s.cur.writeTo dr (s.cur.dest cld dr ^^^ s.cur.source cm1 sr))))

/-- RORA (R328, R325). -/
def execRora (cm1 cld : Bool) (sr dr : RegCode) (s : State) : Host.Outcome State Fault Refusal :=
  finish s (.ok () (s.setCur (s.cur.writeTo dr (s.cur.dest cld dr ||| s.cur.source cm1 sr))))

/-- RMPY: AD <- the exact signed product; C, O, Q are open (R330; log 21). -/
def execRmpy (sr dr : RegCode) (s : State) : Host.Outcome State Fault Refusal :=
  finish s (.ok () ((s.drawn 1).setCur
    { s.cur.setAd (BitVec.ofInt 32 (mulExact (s.cur.get sr) (s.cur.get dr))) with
      sts := openArithFlags (s.anyWord 0) s.cur.sts }.advance))

/-- The registers after RDIV: quotient and remainder, rounded toward zero; on overflow A and D are open and Z is set;
C, O, Q are open in any case (R331; log 21). -/
def RegSet.divided (r : RegSet) (v : Word) (anyA anyD anyFlags : Word) : RegSet :=
  if divOverflow r.ad.toInt v then
    { r with a := anyA, d := anyD, sts := setBit (openArithFlags anyFlags r.sts) 3 true }
  else
    { r with
      a := BitVec.ofInt 16 (r.ad.toInt.tdiv v.toInt)
      d := BitVec.ofInt 16 (r.ad.toInt.tmod v.toInt)
      sts := openArithFlags anyFlags r.sts }

/-- RDIV; bits 2-0 are ignored (R331, R133). -/
def execRdiv (sr : RegCode) (_ign : BitVec 3) (s : State) : Host.Outcome State Fault Refusal :=
  finish s (.ok () ((s.drawn 3).setCur
    (s.cur.divided (s.cur.get sr) (s.anyWord 0) (s.anyWord 1) (s.anyWord 2)).advance))

/-- MIX3: X <- (A - 1) * 3 modulo 2^16 (R332). -/
def execMix3 (s : State) : Host.Outcome State Fault Refusal :=
  finish s (.ok () (s.setCur { s.cur with x := (s.cur.a - 1) * 3 }.advance))

end Sys2Proof.Machine
end

