-- ==== Sys2Proof/Machine/Sequencing.lean ====
section
/-! DEFINITION. Jumps, conditional jumps and SKP (41_sequencing.md). EXR is in Execute.lean. -/

namespace Sys2Proof.Machine

open Sys2Proof

/-- JMP: P <- EA (R250). -/
def execJmp (m : AddrMode) (s : State) : Host.Outcome State Fault Refusal :=
  finish s <| (effAddr m s).bind fun ea s => .ok () (s.setCur { s.cur with p := ea })

/-- JPL: L <- P + 1, P <- EA, the address being computed first (R251). -/
def execJpl (m : AddrMode) (s : State) : Host.Outcome State Fault Refusal :=
  finish s <| (effAddr m s).bind fun ea s => .ok () (s.setCur { s.cur with l := s.cur.p + 1, p := ea })

/-- JAP: jump if A is positive (R253). -/
def execJap (disp : BitVec 8) (s : State) : Host.Outcome State Fault Refusal :=
  finish s (.ok () (s.setCur (s.cur.jumpIf (s.positive s.cur.a) disp)))

/-- JAN: jump if A is negative (R254). -/
def execJan (disp : BitVec 8) (s : State) : Host.Outcome State Fault Refusal :=
  finish s (.ok () (s.setCur (s.cur.jumpIf s.cur.a.msb disp)))

/-- JAZ: jump if A is zero (R255). -/
def execJaz (disp : BitVec 8) (s : State) : Host.Outcome State Fault Refusal :=
  finish s (.ok () (s.setCur (s.cur.jumpIf (s.cur.a = 0) disp)))

/-- JAF: jump if A is not zero (R256). -/
def execJaf (disp : BitVec 8) (s : State) : Host.Outcome State Fault Refusal :=
  finish s (.ok () (s.setCur (s.cur.jumpIf (s.cur.a ≠ 0) disp)))

/-- JPC: increment X, and jump if it is then positive (R257). -/
def execJpc (disp : BitVec 8) (s : State) : Host.Outcome State Fault Refusal :=
  finish s (.ok () (s.setCur ({ s.cur with x := s.cur.x + 1 }.jumpIf (s.positive (s.cur.x + 1)) disp)))

/-- JNC: increment X, and jump if it is then negative (R258). -/
def execJnc (disp : BitVec 8) (s : State) : Host.Outcome State Fault Refusal :=
  finish s (.ok () (s.setCur ({ s.cur with x := s.cur.x + 1 }.jumpIf (s.cur.x + 1).msb disp)))

/-- JXZ: jump if X is zero (R259). -/
def execJxz (disp : BitVec 8) (s : State) : Host.Outcome State Fault Refusal :=
  finish s (.ok () (s.setCur (s.cur.jumpIf (s.cur.x = 0) disp)))

/-- JXN: jump if X is negative (R260). -/
def execJxn (disp : BitVec 8) (s : State) : Host.Outcome State Fault Refusal :=
  finish s (.ok () (s.setCur (s.cur.jumpIf s.cur.x.msb disp)))

/-- SKP: skip if (dr) - (sr) meets the condition; no register and no flag is written (R261, R262). -/
def execSkp (c : SkipCond) (sr dr : RegCode) (s : State) : Host.Outcome State Fault Refusal :=
  finish s (.ok () (s.setCur
    (if skipCondition c (s.cur.get dr) (s.cur.get sr) then s.cur.skip else s.cur.advance)))

end Sys2Proof.Machine
end

