-- ==== Sys2Proof/Machine/Sintran.lean ====
section
/-! DEFINITION. The SINTRAN III instructions (48_sintran_control.md), all privileged (R570). -/

namespace Sys2Proof.Machine

open Sys2Proof

/-! ## The xxTX instructions (R571 to R578) -/

/-- X + Δ, within the bank (R571). -/
def RegSet.txAddr (r : RegSet) (delta : BitVec 3) : Word := r.x + delta.setWidth 16

/-- LDATX (R572). -/
def execLdatx (delta : BitVec 3) (s : State) : Host.Outcome State Fault Refusal :=
  finish s <| privileged s <| (physRead s.cur.t (s.cur.txAddr delta) s).bind fun v s =>
    .ok () (s.setCur { s.cur with a := v }.advance)

/-- LDXTX: the address is of the old X (R573). -/
def execLdxtx (delta : BitVec 3) (s : State) : Host.Outcome State Fault Refusal :=
  finish s <| privileged s <| (physRead s.cur.t (s.cur.txAddr delta) s).bind fun v s =>
    .ok () (s.setCur { s.cur with x := v }.advance)

/-- LDDTX: both words are read before a register is written (R574). -/
def execLddtx (delta : BitVec 3) (s : State) : Host.Outcome State Fault Refusal :=
  finish s <| privileged s <| (physRead s.cur.t (s.cur.txAddr delta) s).bind fun v s =>
    (physRead s.cur.t (s.cur.txAddr delta + 1) s).bind fun w s =>
      .ok () (s.setCur { s.cur with a := v, d := w }.advance)

/-- LDBTX: B <- 0o177000 | 2 * the word (R575). -/
def execLdbtx (delta : BitVec 3) (s : State) : Host.Outcome State Fault Refusal :=
  finish s <| privileged s <| (physRead s.cur.t (s.cur.txAddr delta) s).bind fun v s =>
    .ok () (s.setCur { s.cur with b := entryAddr v }.advance)

/-- STATX (R576). -/
def execStatx (delta : BitVec 3) (s : State) : Host.Outcome State Fault Refusal :=
  finish s <| privileged s <| (physWrite s.cur.t (s.cur.txAddr delta) s.cur.a s).bind fun _ s => .ok () s.advance

/-- STZTX (R577). -/
def execStztx (delta : BitVec 3) (s : State) : Host.Outcome State Fault Refusal :=
  finish s <| privileged s <| (physWrite s.cur.t (s.cur.txAddr delta) 0 s).bind fun _ s => .ok () s.advance

/-- STDTX (R578). -/
def execStdtx (delta : BitVec 3) (s : State) : Host.Outcome State Fault Refusal :=
  finish s <| privileged s <| (physWrite s.cur.t (s.cur.txAddr delta) s.cur.a s).bind fun _ s =>
    (physWrite s.cur.t (s.cur.txAddr delta + 1) s.cur.d s).bind fun _ s => .ok () s.advance

/-! ## Global pointers and the table banks (R580 to R590) -/

/-- WGLOB (R580). -/
def execWglob (s : State) : Host.Outcome State Fault Refusal :=
  finish s (privileged s (.ok () (s.setGlobals s.cur.t s.cur.a s.cur.d).advance))

/-- RGLOB (R581). -/
def execRglob (s : State) : Host.Outcome State Fault Refusal :=
  finish s (privileged s (.ok () (s.setCur { s.cur with t := s.stbnk, a := s.stsrt, d := s.cmbnk }.advance)))

/-- B + Δ, within the bank (R582). -/
def RegSet.bankAddr (r : RegSet) (delta : BitVec 3) : Word := r.b + delta.setWidth 16

/-- LASB (R583). -/
def execLasb (delta : BitVec 3) (s : State) : Host.Outcome State Fault Refusal :=
  finish s <| privileged s <| (physRead s.stbnk (s.cur.bankAddr delta) s).bind fun v s =>
    .ok () (s.setCur { s.cur with a := v }.advance)

/-- SASB (R584). -/
def execSasb (delta : BitVec 3) (s : State) : Host.Outcome State Fault Refusal :=
  finish s <| privileged s <| (physWrite s.stbnk (s.cur.bankAddr delta) s.cur.a s).bind fun _ s => .ok () s.advance

/-- LACB (R585). -/
def execLacb (delta : BitVec 3) (s : State) : Host.Outcome State Fault Refusal :=
  finish s <| privileged s <| (physRead s.cmbnk (s.cur.bankAddr delta) s).bind fun v s =>
    .ok () (s.setCur { s.cur with a := v }.advance)

/-- SACB (R586). -/
def execSacb (delta : BitVec 3) (s : State) : Host.Outcome State Fault Refusal :=
  finish s <| privileged s <| (physWrite s.cmbnk (s.cur.bankAddr delta) s.cur.a s).bind fun _ s => .ok () s.advance

/-- LXSB (R587). -/
def execLxsb (delta : BitVec 3) (s : State) : Host.Outcome State Fault Refusal :=
  finish s <| privileged s <| (physRead s.stbnk (s.cur.bankAddr delta) s).bind fun v s =>
    .ok () (s.setCur { s.cur with x := v }.advance)

/-- LXCB (R588). -/
def execLxcb (delta : BitVec 3) (s : State) : Host.Outcome State Fault Refusal :=
  finish s <| privileged s <| (physRead s.cmbnk (s.cur.bankAddr delta) s).bind fun v s =>
    .ok () (s.setCur { s.cur with x := v }.advance)

/-- SZSB (R589). -/
def execSzsb (delta : BitVec 3) (s : State) : Host.Outcome State Fault Refusal :=
  finish s <| privileged s <| (physWrite s.stbnk (s.cur.bankAddr delta) 0 s).bind fun _ s => .ok () s.advance

/-- SZCB (R590). -/
def execSzcb (delta : BitVec 3) (s : State) : Host.Outcome State Fault Refusal :=
  finish s <| privileged s <| (physWrite s.cmbnk (s.cur.bankAddr delta) 0 s).bind fun _ s => .ok () s.advance

/-! ## Bits, bytes, test and set (R595 to R602) -/

/-- LBIT (R595). -/
def execLbit (s : State) : Host.Outcome State Fault Refusal :=
  finish s <| privileged s <| (memRead (bitWordAddr s.cur.x s.cur.a) s).bind fun w s =>
    .ok () (s.setCur (s.cur.setK (w.getLsbD (bitPos s.cur.a))).advance)

/-- SBIT (R596). -/
def execSbit (s : State) : Host.Outcome State Fault Refusal :=
  finish s <| privileged s <| (memRead (bitWordAddr s.cur.x s.cur.a) s).bind fun w s =>
    (memWrite (bitWordAddr s.cur.x s.cur.a) (setBit w (bitPos s.cur.a) s.cur.k) s).bind fun _ s => .ok () s.advance

/-- LBITP (R597). -/
def execLbitp (s : State) : Host.Outcome State Fault Refusal :=
  finish s <| privileged s <| (physRead s.cur.t (bitWordAddr s.cur.x s.cur.a) s).bind fun w s =>
    .ok () (s.setCur (s.cur.setK (w.getLsbD (bitPos s.cur.a))).advance)

/-- SBITP (R598). -/
def execSbitp (s : State) : Host.Outcome State Fault Refusal :=
  finish s <| privileged s <| (physRead s.cur.t (bitWordAddr s.cur.x s.cur.a) s).bind fun w s =>
    (physWrite s.cur.t (bitWordAddr s.cur.x s.cur.a) (setBit w (bitPos s.cur.a) s.cur.k) s).bind fun _ s =>
      .ok () s.advance

/-- LBYTP (R599). -/
def execLbytp (s : State) : Host.Outcome State Fault Refusal :=
  finish s <| privileged s <| (physRead s.cur.d (byteAddr s.cur.t s.cur.x) s).bind fun w s =>
    .ok () (s.setCur { s.cur with a := (loadByte w (byteSel s.cur.x)).setWidth 16 }.advance)

/-- SBYTP (R600). -/
def execSbytp (s : State) : Host.Outcome State Fault Refusal :=
  finish s <| privileged s <| (physRead s.cur.d (byteAddr s.cur.t s.cur.x) s).bind fun w s =>
    (physWrite s.cur.d (byteAddr s.cur.t s.cur.x) (storeByte w (byteSel s.cur.x) (rightByte s.cur.a)) s).bind
      fun _ s => .ok () s.advance

/-- TSETP: the indivisible pair at T and X (R601). -/
def execTsetp (s : State) : Host.Outcome State Fault Refusal :=
  finish s <| privileged s <| (physRead s.cur.t s.cur.x s).bind fun v s =>
    (physWrite s.cur.t s.cur.x 0o177777 s).bind fun _ s => .ok () (s.setCur { s.cur with a := v }.advance)

/-- RDUSP (R602). -/
def execRdusp (s : State) : Host.Outcome State Fault Refusal :=
  finish s <| privileged s <| (physRead s.cur.t s.cur.x s).bind fun v s =>
    .ok () (s.setCur { s.cur with a := v }.advance)

/-! ## Page-table lists (R610 to R613): one record a step, P staying until X is 0 (log 36) -/

/-- One record of SETPT: the registers written before an access that faults keep their values (R611). -/
def setptRecord (s : State) : Res Unit :=
  (physRead s.cur.t (s.cur.x + 2) s).bind fun v s =>
    (physRead s.cur.t (s.cur.x + 3) (s.setCur { s.cur with a := setBit v 11 false })).bind fun w s =>
    (physRead s.cur.t (s.cur.x + 1) (s.setCur { s.cur with d := w })).bind fun n s =>
      (memWrite (entryAddr n) s.cur.a (s.setCur { s.cur with b := entryAddr n })).bind fun _ s =>
        (memWrite (s.cur.b + 1) s.cur.d s).bind fun _ s => (physRead s.cur.t s.cur.x s).bind fun next s =>
          .ok () (s.setCur { s.cur with x := next })

/-- SETPT (R611). -/
def execSetpt (s : State) : Host.Outcome State Fault Refusal :=
  finish s (privileged s (if s.cur.x = 0 then .ok () s.advance else setptRecord s))

/-- X <- the first word of the record (R612, R613). -/
def nextRecord (s : State) : Res Unit :=
  (physRead s.cur.t s.cur.x s).bind fun next s => .ok () (s.setCur { s.cur with x := next })

/-- The entry of a record: its number, with B at the entry and A its first word (R612, R613). -/
def loadEntry (s : State) : Res Word :=
  (physRead s.cur.t (s.cur.x + 1) s).bind fun n s =>
    (memRead (entryAddr n) (s.setCur { s.cur with b := entryAddr n })).bind fun v s =>
      .ok n (s.setCur { s.cur with a := v })

/-- Save the entry's first word into the record and clear it (R612). -/
def saveAndClear (s : State) : Res Unit :=
  (physWrite s.cur.t (s.cur.x + 2) s.cur.a s).bind fun _ s => memWrite s.cur.b 0 s

/-- One record of CLEPT (R612). -/
def cleptRecord (s : State) : Res Unit :=
  (loadEntry s).bind fun _ s => (if s.cur.a = 0 then .ok () s else saveAndClear s).bind fun _ s => nextRecord s

/-- CLEPT (R612). -/
def execClept (s : State) : Host.Outcome State Fault Refusal :=
  finish s (privileged s (if s.cur.x = 0 then .ok () s.advance else cleptRecord s))

/-- The word of the page map bank for entry `n`: L + ((n >> 4) & 7) (R613). -/
def mapWordAddr (l n : Word) : Word := l + ((n >>> 4) &&& 7)

/-- The PGU bit of the entry into the page map bank (R613). -/
def collectPgu (n : Word) (s : State) : Res Unit :=
  (memRead (mapWordAddr s.cur.l n) s).bind fun mw s =>
    memWrite (mapWordAddr s.cur.l n) (setBit mw (bitPos n) (s.cur.a.getLsbD 11)) s

/-- One record of CLEPU (R613). -/
def clepuRecord (s : State) : Res Unit :=
  (loadEntry s).bind fun n s =>
    (if s.cur.a = 0 then .ok () s else (collectPgu n s).bind fun _ s => saveAndClear s).bind fun _ s => nextRecord s

/-- CLEPU (R613). -/
def execClepu (s : State) : Host.Outcome State Fault Refusal :=
  finish s (privileged s (if s.cur.x = 0 then .ok () s.advance else clepuRecord s))

/-! ## Named and not defined (R614, R615, R620 to R625): the privilege check, then no meaning -/

/-- CLNREENT (R614). -/
def execClnreent (s : State) : Host.Outcome State Fault Refusal :=
  finish s (privileged s (.stop (.sintranUndefined "CLNREENT")))

/-- CHREENTPAGES (R615). -/
def execChreentpages (s : State) : Host.Outcome State Fault Refusal :=
  finish s (privileged s (.stop (.sintranUndefined "CHREENTPAGES")))

/-- CLPT (R620). -/
def execClpt (s : State) : Host.Outcome State Fault Refusal :=
  finish s (privileged s (.stop (.sintranUndefined "CLPT")))

/-- CNREK (R621). -/
def execCnrek (s : State) : Host.Outcome State Fault Refusal :=
  finish s (privileged s (.stop (.sintranUndefined "CNREK")))

/-- ENPT (R622). -/
def execEnpt (s : State) : Host.Outcome State Fault Refusal :=
  finish s (privileged s (.stop (.sintranUndefined "ENPT")))

/-- INSPL (R623). -/
def execInspl (s : State) : Host.Outcome State Fault Refusal :=
  finish s (privileged s (.stop (.sintranUndefined "INSPL")))

/-- REMPL (R624). -/
def execRempl (s : State) : Host.Outcome State Fault Refusal :=
  finish s (privileged s (.stop (.sintranUndefined "REMPL")))

/-- REPT (R625). -/
def execRept (s : State) : Host.Outcome State Fault Refusal :=
  finish s (privileged s (.stop (.sintranUndefined "REPT")))

end Sys2Proof.Machine
end

