-- ==== Sys2Proof/Machine/Stack.lean ====
section
/-! DEFINITION. The stack instructions (46_stack.md): all reads, then the decision, then the memory writes, then the
registers (R482; log 31). -/

namespace Sys2Proof.Machine

open Sys2Proof

/-- The four words of a new frame at `bn`: LINK, PREVB, STP, SMAX (R480, R483, R484). -/
def frameWords (r : RegSet) (stp smax : Word) : List Word := [r.l + 1, r.b, stp, smax]

/-- INIT: the first frame at the stack start; the error return is P + 6, the normal one P + 7 (R484).
The new B that is compared is modulo 2^16, as in the rule's formulas (log 58). -/
def execInit (s : State) : Host.Outcome State Fault Refusal :=
  finish s <| (memRead (s.cur.p + 1) s).bind fun demand s => (memRead (s.cur.p + 2) s).bind fun start s =>
    (memRead (s.cur.p + 3) s).bind fun maxsize s => (memRead (s.cur.p + 4) s).bind fun _ s =>
      if start.toNat + maxsize.toNat < (start + 0o200).toNat + demand.toNat then
        .ok () (s.setCur { s.cur with p := s.cur.p + 6 })
      else
        (memWriteList start (frameWords s.cur (start + 0o200 + demand) (start + maxsize)) s).bind fun _ s =>
          .ok () (s.setCur { s.cur with b := start + 0o200, p := s.cur.p + 7 })

/-- ENTR: a new frame above the current one; the error return is P + 2, the normal one P + 3 (R483).
The new B that is compared is modulo 2^16, as in the rule's formulas, against the prose beside them (log 58). -/
def execEntr (s : State) : Host.Outcome State Fault Refusal :=
  finish s <| (memRead (s.cur.p + 1) s).bind fun demand s => (memRead (s.cur.b - 0o176) s).bind fun stp s =>
    (memRead (s.cur.b - 0o175) s).bind fun smax s =>
      if smax.toNat < (stp + 0o200).toNat + demand.toNat then
        .ok () (s.setCur { s.cur with p := s.cur.p + 2 })
      else
        (memWriteList stp (frameWords s.cur (stp + 0o200 + demand) smax) s).bind fun _ s =>
          .ok () (s.setCur { s.cur with b := stp + 0o200, p := s.cur.p + 3 })

/-- LEAVE: back to the previous frame, to the address in LINK (R485). -/
def execLeave (s : State) : Host.Outcome State Fault Refusal :=
  finish s <| (memRead (s.cur.b - 0o200) s).bind fun link s => (memRead (s.cur.b - 0o177) s).bind fun prevb s =>
    .ok () (s.setCur { s.cur with b := prevb, p := link })

/-- ELEAV: A into ERRCODE of the frame returned to, LINK decremented in the frame left (R487; log 32). -/
def execEleav (s : State) : Host.Outcome State Fault Refusal :=
  finish s <| (memRead (s.cur.b - 0o200) s).bind fun link s => (memRead (s.cur.b - 0o177) s).bind fun prevb s =>
    (memWrite (prevb - 0o173) s.cur.a s).bind fun _ s => (memWrite (s.cur.b - 0o200) (link - 1) s).bind fun _ s =>
      .ok () (s.setCur { s.cur with b := prevb, p := link - 1 })

end Sys2Proof.Machine
end

