-- ==== Sys2Proof/Machine/System.lean ====
section
/-! DEFINITION. System control, input and output, internal registers, registers of other levels (47_system_control.md). -/

namespace Sys2Proof.Machine

open Sys2Proof Sys2Proof.Config

/-! ## Interrupt system and memory management (R501 to R508) -/

/-- IOF (R501). -/
def execIof (s : State) : Host.Outcome State Fault Refusal :=
  finish s (privileged s (.ok () (s.setIoni false).advance))

/-- ION (R502). -/
def execIon (s : State) : Host.Outcome State Fault Refusal :=
  finish s (privileged s (.ok () (s.setIoni true).advance))

/-- POF (R503). -/
def execPof (s : State) : Host.Outcome State Fault Refusal :=
  finish s (privileged s (.ok () (s.setPoni false).advance))

/-- PON (R504). -/
def execPon (s : State) : Host.Outcome State Fault Refusal :=
  finish s (privileged s (.ok () (s.setPoni true).advance))

/-- PIOF (R505). -/
def execPiof (s : State) : Host.Outcome State Fault Refusal :=
  finish s (privileged s (.ok () ((s.setIoni false).setPoni false).advance))

/-- PION (R506). -/
def execPion (s : State) : Host.Outcome State Fault Refusal :=
  finish s (privileged s (.ok () ((s.setIoni true).setPoni true).advance))

/-- SEX (R507). -/
def execSex (s : State) : Host.Outcome State Fault Refusal :=
  finish s (privileged s (.ok () (s.setSexi true).advance))

/-- REX (R508). -/
def execRex (s : State) : Host.Outcome State Fault Refusal :=
  finish s (privileged s (.ok () (s.setSexi false).advance))

/-! ## WAIT, OPCOM, IDENT, MON (R509 to R516) -/

/-- WAIT: stop with the interrupt system off; else give up the level, but for level 0 (R509). The number has no
effect. -/
def execWait (_n : BitVec 8) (s : State) : Host.Outcome State Fault Refusal :=
  finish s (privileged s (.ok () (
    if !s.ioni then s.advance.setRun .stopped
    else if s.pil = 0 then s.advance
    else s.advance.giveUpLevel)))

/-- OPCOM: the host is told; nothing else but P + 1 (R510; log 33). -/
def execOpcom (s : State) : Host.Outcome State Fault Refusal :=
  finish s (privileged s (.ok () (s.emit .opcom).advance))

/-- The end of an input: A takes what a device answers; without a device A is not written and IoxError is raised, or,
if that cannot be taken, A is open (R512, R522; log 34). -/
def State.inputDone (s : State) (answer : Option Word) : State :=
  match answer with
  | some v => (s.drawn 1).setCur { s.cur with a := v }.advance
  | none =>
    if s.causeEnabled .ioxError then (s.drawn 1).advance.request .ioxError
    else (s.drawn 1).setCur { s.cur with a := s.anyWord 0 }.advance

/-- The end of an output: without a device IoxError is raised, or nothing if that cannot be taken (R522). -/
def State.outputDone (s : State) (answered : Bool) : State :=
  if answered then (s.drawn 1).advance else (s.drawn 1).advance.requestIfEnabled .ioxError

/-- IDENT on a level (R512). -/
def identify (lv : Level) (s : State) : Res Unit :=
  .ok () ((s.emit (.ident lv)).inputDone (ioIdent s.draws lv))

/-- IDENT PL10 (R512). -/
def execIdentPl10 (s : State) : Host.Outcome State Fault Refusal := finish s (privileged s (identify 10 s))

/-- IDENT PL11 (R512). -/
def execIdentPl11 (s : State) : Host.Outcome State Fault Refusal := finish s (privileged s (identify 11 s))

/-- IDENT PL12 (R512). -/
def execIdentPl12 (s : State) : Host.Outcome State Fault Refusal := finish s (privileged s (identify 12 s))

/-- IDENT PL13 (R512). -/
def execIdentPl13 (s : State) : Host.Outcome State Fault Refusal := finish s (privileged s (identify 13 s))

/-- MON: T of level 14 takes the call number, P goes on, and MonitorCall is requested (R516). -/
def execMon (n : BitVec 8) (s : State) : Host.Outcome State Fault Refusal :=
  finish s (.ok () (((s.setLevel 14 { s.level 14 with t := sext8 n }).advance).requestIfEnabled .monitorCall))

/-! ## Input and output (R520 to R523) -/

/-- A transfer between A and a device register; an odd address is an output (R520, R521). -/
def transfer (addr : Word) (s : State) : Res Unit :=
  .ok () (
    if addr.getLsbD 0 then (s.emit (.ioWrite addr s.cur.a)).outputDone (ioWriteAnswered s.draws addr s.cur.a)
    else (s.emit (.ioRead addr)).inputDone (ioRead s.draws addr))

/-- IOX: the address is in the instruction (R520). -/
def execIox (dev : BitVec 11) (s : State) : Host.Outcome State Fault Refusal :=
  finish s (privileged s (transfer (dev.setWidth 16) s))

/-- IOXT: the address is in T (R521). -/
def execIoxt (s : State) : Host.Outcome State Fault Refusal := finish s (privileged s (transfer s.cur.t s))

/-- IOT never executes: privileged in rings 0 and 1, illegal otherwise (R523). -/
def execIot (_operand : BitVec 11) (s : State) : Host.Outcome State Fault Refusal :=
  finish s (privileged s (.trap .illegalInstruction s))

/-! ## Internal registers (R530 to R534), numbered by the parameter INTERNAL_REG_CODES (10_state.md R60; log 12) -/

/-- The register a number names for TRA: 1 is STS, the source's one number; the others are the table's (R60). -/
def State.readReg (s : State) (r : BitVec 4) : Option ReadReg :=
  if r = 1 then some .sts else s.params.regCodes.read[r.toNat]'r.isLt

/-- The register a number names for TRR: 1 is STS, the source's one number; the others are the table's (R60). -/
def State.writeReg (s : State) (r : BitVec 4) : Option WriteReg :=
  if r = 1 then some .sts else s.params.regCodes.write[r.toNat]'r.isLt

/-- The register a number names for MCL and MST, which accept STS, PID and PIE only (R59, R532, R533). -/
def State.maskedReg (s : State) (r : BitVec 4) : Option WriteReg :=
  (s.writeReg r).filter fun reg => reg == .sts || reg == .pid || reg == .pie

/-- PVL as TRA reads it: bits 6-3 are PVL, the others open (R534, R711). -/
def State.pvlWord (s : State) : Word :=
  (s.anyWord 0).extractLsb' 7 9 ++ s.pvl ++ (s.anyWord 0).extractLsb' 0 3

/-- `ReadInternal`: the value, and the state with what reading changes (R534). A host register reads as an open
value. -/
def State.readInternal (s : State) (r : ReadReg) : Word × State :=
  match r with
  | .sts => (s.stsWord s.pil, s.drawn 1)
  | .pid => (s.pid, s)
  | .pie => (s.pie, s)
  | .iic => (s.iic.setWidth 16, s.setIic 0)
  | .pvl => (s.pvlWord, s.drawn 1)
  | .actl => (s.pid &&& s.pie, s)
  | .pans | .opr | .psr | .csr | .ald | .pes | .pgc | .pea | .cs => (s.anyWord 0, s.drawn 1)

/-- `WriteInternal`: a host register is not of the state (R534). A PCR is that of the level in bits 6-3 of the value
(log 35). -/
def State.writeInternal (s : State) (r : WriteReg) (v : Word) : State :=
  match r with
  | .sts => s.setCur { s.cur with sts := rightByte v }
  | .pid => s.setPid v
  | .pie => s.setPie v
  | .iie => s.setIie v
  | .pcr => s.setPcr (v.extractLsb' 3 4) v
  | .panc | .lmp | .ccl | .lcil | .ucil | .cilp | .eccr | .cs => s

/-- TRA (R530). -/
def execTra (r : BitVec 4) (s : State) : Host.Outcome State Fault Refusal :=
  finish s (privileged s (
    match s.readReg r with
    | none => .stop (.internalRegisterUnassigned r)
    | some reg => .ok () ((s.readInternal reg).2.setCur { s.cur with a := (s.readInternal reg).1 }.advance)))

/-- TRR (R531). -/
def execTrr (r : BitVec 4) (s : State) : Host.Outcome State Fault Refusal :=
  finish s (privileged s (
    match s.writeReg r with
    | none => .stop (.internalRegisterUnassigned r)
    | some reg => .ok () (s.writeInternal reg s.cur.a).advance))

/-- `CurrentInternal`: of STS the running level's bits 7-0 (R532). -/
def State.currentInternal (s : State) (r : WriteReg) : Word :=
  match r with
  | .sts => s.cur.sts.setWidth 16
  | .pid => s.pid
  | .pie => s.pie
  | _ => 0

/-- MCL and MST: a masked register rewritten by `f` of its value and A (R532, R533). -/
def maskedWrite (f : Word → Word → Word) (r : BitVec 4) (s : State) : Res Unit :=
  match s.maskedReg r with
  | none => .stop (.internalRegisterUnassigned r)
  | some reg => .ok () (s.writeInternal reg (f (s.currentInternal reg) s.cur.a)).advance

/-- MCL: the bits set in A are cleared (R532). -/
def execMcl (r : BitVec 4) (s : State) : Host.Outcome State Fault Refusal :=
  finish s (privileged s (maskedWrite (fun v a => v &&& ~~~a) r s))

/-- MST: the bits set in A are set (R533). -/
def execMst (r : BitVec 4) (s : State) : Host.Outcome State Fault Refusal :=
  finish s (privileged s (maskedWrite (fun v a => v ||| a) r s))

/-! ## Registers of other levels (R540 to R543) -/

/-- The register of a level as IRR reads it: code 0 is STS, the own P is that of the next instruction (R540). -/
def State.interRead (s : State) (lv : Level) (reg : RegCode) : Word :=
  if reg = .zero then s.stsWord lv
  else if lv = s.pil ∧ reg = .p then s.cur.p + 1
  else (s.level lv).get reg

/-- IRR (R540). Reading STS draws its open bit. -/
def execIrr (lv : Level) (reg : RegCode) (s : State) : Host.Outcome State Fault Refusal :=
  finish s (privileged s (.ok () (
    (if reg = .zero then s.drawn 1 else s).setCur { s.cur with a := s.interRead lv reg }.advance)))

/-- The register set of a level after IRW: code 0 is STS bits 7-0 (R541). -/
def RegSet.interWrite (r : RegSet) (reg : RegCode) (v : Word) : RegSet :=
  if reg = .zero then { r with sts := rightByte v } else r.set reg v

/-- IRW: writing the own P is a jump (R541). -/
def execIrw (lv : Level) (reg : RegCode) (s : State) : Host.Outcome State Fault Refusal :=
  finish s (privileged s (.ok () (
    if lv = s.pil ∧ reg = .p then s.setLevel lv ((s.level lv).interWrite reg s.cur.a)
    else (s.setLevel lv ((s.level lv).interWrite reg s.cur.a)).advance)))

/-- The register set a block of eight words holds: P, X, T, A, D, L, STS, B (R542). -/
def RegSet.ofBlock (ws : List Word) : RegSet where
  p := ws.getD 0 0
  x := ws.getD 1 0
  t := ws.getD 2 0
  a := ws.getD 3 0
  d := ws.getD 4 0
  l := ws.getD 5 0
  sts := rightByte (ws.getD 6 0)
  b := ws.getD 7 0

/-- LRB: all eight words are read first; the own P is not loaded (R542). -/
def execLrb (lv : Level) (s : State) : Host.Outcome State Fault Refusal :=
  finish s <| privileged s <| (memReadList s.cur.x 8 s).bind fun ws s =>
    .ok () (
      if lv = s.pil then (s.setCur { RegSet.ofBlock ws with p := s.cur.p }).advance
      else (s.setLevel lv (RegSet.ofBlock ws)).advance)

/-- The eight words SRB stores (R543). -/
def State.blockWords (s : State) (lv : Level) : List Word :=
  [s.interRead lv .p, (s.level lv).x, (s.level lv).t, (s.level lv).a, (s.level lv).d, (s.level lv).l, s.stsWord lv,
    (s.level lv).b]

/-- SRB (R543). Storing STS draws its open bit. -/
def execSrb (lv : Level) (s : State) : Host.Outcome State Fault Refusal :=
  finish s <| privileged s <| (memWriteList s.cur.x (s.blockWords lv) (s.drawn 1)).bind fun _ s => .ok () s.advance

/-! ## Physical memory, test and set (R550 to R553) -/

/-- EXAM: T <- the word of bank A, address D (R550). -/
def execExam (s : State) : Host.Outcome State Fault Refusal :=
  finish s <| privileged s <| (physRead s.cur.a s.cur.d s).bind fun v s =>
    .ok () (s.setCur { s.cur with t := v }.advance)

/-- DEPO: T into the word of bank A, address D (R551). -/
def execDepo (s : State) : Host.Outcome State Fault Refusal :=
  finish s <| privileged s <| (physWrite s.cur.a s.cur.d s.cur.t s).bind fun _ s => .ok () s.advance

/-- RDUS: A <- the word at T (R552). -/
def execRdus (s : State) : Host.Outcome State Fault Refusal :=
  finish s <| privileged s <| (memRead s.cur.t s).bind fun v s => .ok () (s.setCur { s.cur with a := v }.advance)

/-- TSET: the indivisible pair at T, translated once as a write (R553). -/
def execTset (s : State) : Host.Outcome State Fault Refusal :=
  finish s <| privileged s <| (memTestAndSet s.cur.t s).bind fun v s => .ok () (s.setCur { s.cur with a := v }.advance)

/-! ## LWCS, VERSN, GECO (R554 to R556) -/

/-- LWCS: a no-operation on the ND-110; not described on the ND-100 (R554). -/
def execLwcs (s : State) : Host.Outcome State Fault Refusal :=
  finish s <| privileged s <|
    match s.params.cpuModel with
    | .nd110 => .ok () s.advance
    | .nd100 => .stop .lwcsOnNd100

/-- VERSN: the version words and one byte of the installation number, chosen by A[11:8]; illegal on the ND-100
(R555). -/
def execVersn (s : State) : Host.Outcome State Fault Refusal :=
  finish s <|
    match s.params.cpuModel with
    | .nd100 => .trap .illegalInstruction s
    | .nd110 =>
      .ok () ((s.drawn 1).setCur { s.cur with
        a := s.params.versionInfo.print ++ s.params.versionInfo.ald
        t := s.params.versionInfo.microprogram
        d := leftByte (s.anyWord 0) ++
          s.params.versionInfo.installation[(s.cur.a.extractLsb' 8 4).toNat]'(s.cur.a.extractLsb' 8 4).isLt }.advance)

/-- GECO has no described effect (R556). -/
def execGeco (s : State) : Host.Outcome State Fault Refusal := finish s (.stop .gecoUndocumented)

end Sys2Proof.Machine
end

