-- ==== Sys2Proof/Machine/Execute.lean ====
section
/-! DEFINITION. EXR, which executes the word a register holds (41_sequencing.md R270), and the front of a step: where
the next instruction is fetched (60_exceptions.md R700). -/

namespace Sys2Proof.Machine

open Sys2Proof Sys2Proof.Config

/-- EXR of an EXR: Z is set, nothing is executed (R270). -/
def nestedExr (s : State) : Host.Outcome State Fault Refusal :=
  finish s (.ok () (s.setCur (s.cur.signalError true).advance))

/-- What EXR executes: every instruction by its own meaning, but an EXR (R270). -/
def execPlain (i : Instr) (s : State) : Host.Outcome State Fault Refusal :=
  match i with
  | .stz m => execStz m s
  | .sta m => execSta m s
  | .stt m => execStt m s
  | .stx m => execStx m s
  | .std m => execStd m s
  | .ldd m => execLdd m s
  | .stf m => execStf m s
  | .ldf m => execLdf m s
  | .min m => execMin m s
  | .lda m => execLda m s
  | .ldt m => execLdt m s
  | .ldx m => execLdx m s
  | .add m => execAdd m s
  | .sub m => execSub m s
  | .and m => execAnd m s
  | .ora m => execOra m s
  | .fad m => execFad m s
  | .fsb m => execFsb m s
  | .fmu m => execFmu m s
  | .fdv m => execFdv m s
  | .mpy m => execMpy m s
  | .jmp m => execJmp m s
  | .jpl m => execJpl m s
  | .jap disp => execJap disp s
  | .jan disp => execJan disp s
  | .jaz disp => execJaz disp s
  | .jaf disp => execJaf disp s
  | .jpc disp => execJpc disp s
  | .jnc disp => execJnc disp s
  | .jxz disp => execJxz disp s
  | .jxn disp => execJxn disp s
  | .sab n => execSab n s
  | .saa n => execSaa n s
  | .sat n => execSat n s
  | .sax n => execSax n s
  | .aab n => execAab n s
  | .aaa n => execAaa n s
  | .aat n => execAat n s
  | .aax n => execAax n s
  | .wait n => execWait n s
  | .nlz n => execNlz n s
  | .dnz n => execDnz n s
  | .mon n => execMon n s
  | .skp c sr dr => execSkp c sr dr s
  | .swap cm1 cld sr dr => execSwap cm1 cld sr dr s
  | .rand cm1 cld sr dr => execRand cm1 cld sr dr s
  | .rexo cm1 cld sr dr => execRexo cm1 cld sr dr s
  | .rora cm1 cld sr dr => execRora cm1 cld sr dr s
  | .radd adc ad1 cm1 cld sr dr => execRadd adc ad1 cm1 cld sr dr s
  | .copy sr dr => execCopy sr dr s
  | .rclr dr => execRclr dr s
  | .rinc dr => execRinc dr s
  | .rdcr dr => execRdcr dr s
  | .rsub sr dr => execRsub sr dr s
  | .exit => execExit s
  | .bsetZro bn dr => execBsetZro bn dr s
  | .bsetOne bn dr => execBsetOne bn dr s
  | .bsetBcm bn dr => execBsetBcm bn dr s
  | .bsetBac bn dr => execBsetBac bn dr s
  | .bskpZro bn dr => execBskpZro bn dr s
  | .bskpOne bn dr => execBskpOne bn dr s
  | .bskpBcm bn dr => execBskpBcm bn dr s
  | .bskpBac bn dr => execBskpBac bn dr s
  | .bstc bn dr => execBstc bn dr s
  | .bsta bn dr => execBsta bn dr s
  | .bldc bn dr => execBldc bn dr s
  | .blda bn dr => execBlda bn dr s
  | .banc bn dr => execBanc bn dr s
  | .band bn dr => execBand bn dr s
  | .borc bn dr => execBorc bn dr s
  | .bora bn dr => execBora bn dr s
  | .sht ty cnt => execSht ty cnt s
  | .shd ty cnt => execShd ty cnt s
  | .sha ty cnt => execSha ty cnt s
  | .sad ty cnt => execSad ty cnt s
  | .iot operand => execIot operand s
  | .iox dev => execIox dev s
  | .tra r => execTra r s
  | .trr r => execTrr r s
  | .mcl r => execMcl r s
  | .mst r => execMst r s
  | .opcom => execOpcom s
  | .iof => execIof s
  | .ion => execIon s
  | .pof => execPof s
  | .piof => execPiof s
  | .sex => execSex s
  | .rex => execRex s
  | .pon => execPon s
  | .pion => execPion s
  | .ioxt => execIoxt s
  | .exam => execExam s
  | .depo => execDepo s
  | .addd => execAddd s
  | .subd => execSubd s
  | .comd => execComd s
  | .tset => execTset s
  | .pack => execPack s
  | .upack => execUpack s
  | .shde => execShde s
  | .rdus => execRdus s
  | .bfill => execBfill s
  | .movb => execMovb s
  | .movbf => execMovbf s
  | .init => execInit s
  | .entr => execEntr s
  | .leave => execLeave s
  | .eleav => execEleav s
  | .setpt => execSetpt s
  | .clept => execClept s
  | .clnreent => execClnreent s
  | .chreentpages => execChreentpages s
  | .clepu => execClepu s
  | .wglob => execWglob s
  | .rglob => execRglob s
  | .inspl => execInspl s
  | .rempl => execRempl s
  | .cnrek => execCnrek s
  | .clpt => execClpt s
  | .enpt => execEnpt s
  | .rept => execRept s
  | .lbit => execLbit s
  | .lbitp => execLbitp s
  | .sbit => execSbit s
  | .sbitp => execSbitp s
  | .lbytp => execLbytp s
  | .sbytp => execSbytp s
  | .tsetp => execTsetp s
  | .rdusp => execRdusp s
  | .lbyt => execLbyt s
  | .sbyt => execSbyt s
  | .geco => execGeco s
  | .mix3 => execMix3 s
  | .lwcs => execLwcs s
  | .versn => execVersn s
  | .exr _ _ => nestedExr s
  | .rdiv sr ign => execRdiv sr ign s
  | .rmpy sr dr => execRmpy sr dr s
  | .lasb delta => execLasb delta s
  | .sasb delta => execSasb delta s
  | .lacb delta => execLacb delta s
  | .sacb delta => execSacb delta s
  | .lxsb delta => execLxsb delta s
  | .lxcb delta => execLxcb delta s
  | .szsb delta => execSzsb delta s
  | .szcb delta => execSzcb delta s
  | .ldatx delta => execLdatx delta s
  | .ldxtx delta => execLdxtx delta s
  | .lddtx delta => execLddtx delta s
  | .ldbtx delta => execLdbtx delta s
  | .statx delta => execStatx delta s
  | .stztx delta => execStztx delta s
  | .stdtx delta => execStdtx delta s
  | .movew0 => execMovew0 s
  | .movew1 => execMovew1 s
  | .movew2 => execMovew2 s
  | .movew3 => execMovew3 s
  | .movew4 => execMovew4 s
  | .movew5 => execMovew5 s
  | .movew6 => execMovew6 s
  | .movew7 => execMovew7 s
  | .movew10 => execMovew10 s
  | .identPl10 => execIdentPl10 s
  | .identPl11 => execIdentPl11 s
  | .identPl12 => execIdentPl12 s
  | .identPl13 => execIdentPl13 s
  | .srb lv => execSrb lv s
  | .lrb lv => execLrb lv s
  | .irw lv reg => execIrw lv reg s
  | .irr lv reg => execIrr lv reg s

/-- EXR: the word in the register runs as if it had been fetched at the address of the EXR; source codes 0 and 2 are
illegal (R270, R150). Bits 2-0 are ignored (log 18). -/
def execExr (sr : RegCode) (_ign : BitVec 3) (s : State) : Host.Outcome State Fault Refusal :=
  if sr = .zero ∨ sr = .p then finish s (.trap .illegalInstruction s)
  else
    match decodeWord (s.cur.get sr) with
    | none => finish s (.trap .illegalInstruction s)
    | some i => execPlain i s

/-- Steps 1 and 2 of R700: the host's events, then level selection. -/
def State.front (s : State) : State := s.takeEvents.select

/-- The instruction at P: fetched, then decoded; an unassigned word is illegal (R700 steps 3 and 4, R150). -/
def fetchInstr (s : State) : Res Instr :=
  (fetchWord s).bind fun w s =>
    match decodeWord w with
    | none => .trap .illegalInstruction s
    | some i => .ok i s

/-- The step of a running CPU, with the meanings given (R700). -/
def stepWith (meaning : Instr → State → Host.Outcome State Fault Refusal) (s : State) :
    Host.Outcome State Fault Refusal :=
  match fetchInstr s.front with
  | .ok i s => meaning i s
  | .trap c s => takeTrap c s
  | .stop r => .refused r

/-- A state whose next step has no host events and finds the CPU running (log 3). -/
def State.readyToFetch (s : State) : State :=
  (s.setRun .running).setInbox (match s.inbox with | [] => [] | _ :: q => [] :: q)

/-- The word stored where the next step fetches, if that place can be reached (log 3). -/
def State.storeAtFetch (s : State) (w : Word) : State :=
  match locate .fetch .untagged s.readyToFetch.front.cur.p s.readyToFetch.front with
  | .ok p _ => s.readyToFetch.writePlace w p
  | _ => s.readyToFetch

end Sys2Proof.Machine
end

