-- ==== Sys2Proof/Machine/Dispatch.lean ====
section
/-! DEFINITION. One arm per instruction: the meaning it calls. -/

namespace Sys2Proof.Machine

def exec (i : Instr) (s : State) : Host.Outcome State Fault Refusal :=
  match i with
  | .stz m => Sys2Proof.Machine.execStz m s
  | .sta m => Sys2Proof.Machine.execSta m s
  | .stt m => Sys2Proof.Machine.execStt m s
  | .stx m => Sys2Proof.Machine.execStx m s
  | .std m => Sys2Proof.Machine.execStd m s
  | .ldd m => Sys2Proof.Machine.execLdd m s
  | .stf m => Sys2Proof.Machine.execStf m s
  | .ldf m => Sys2Proof.Machine.execLdf m s
  | .min m => Sys2Proof.Machine.execMin m s
  | .lda m => Sys2Proof.Machine.execLda m s
  | .ldt m => Sys2Proof.Machine.execLdt m s
  | .ldx m => Sys2Proof.Machine.execLdx m s
  | .add m => Sys2Proof.Machine.execAdd m s
  | .sub m => Sys2Proof.Machine.execSub m s
  | .and m => Sys2Proof.Machine.execAnd m s
  | .ora m => Sys2Proof.Machine.execOra m s
  | .fad m => Sys2Proof.Machine.execFad m s
  | .fsb m => Sys2Proof.Machine.execFsb m s
  | .fmu m => Sys2Proof.Machine.execFmu m s
  | .fdv m => Sys2Proof.Machine.execFdv m s
  | .mpy m => Sys2Proof.Machine.execMpy m s
  | .jmp m => Sys2Proof.Machine.execJmp m s
  | .jpl m => Sys2Proof.Machine.execJpl m s
  | .jap disp => Sys2Proof.Machine.execJap disp s
  | .jan disp => Sys2Proof.Machine.execJan disp s
  | .jaz disp => Sys2Proof.Machine.execJaz disp s
  | .jaf disp => Sys2Proof.Machine.execJaf disp s
  | .jpc disp => Sys2Proof.Machine.execJpc disp s
  | .jnc disp => Sys2Proof.Machine.execJnc disp s
  | .jxz disp => Sys2Proof.Machine.execJxz disp s
  | .jxn disp => Sys2Proof.Machine.execJxn disp s
  | .sab n => Sys2Proof.Machine.execSab n s
  | .saa n => Sys2Proof.Machine.execSaa n s
  | .sat n => Sys2Proof.Machine.execSat n s
  | .sax n => Sys2Proof.Machine.execSax n s
  | .aab n => Sys2Proof.Machine.execAab n s
  | .aaa n => Sys2Proof.Machine.execAaa n s
  | .aat n => Sys2Proof.Machine.execAat n s
  | .aax n => Sys2Proof.Machine.execAax n s
  | .wait n => Sys2Proof.Machine.execWait n s
  | .nlz n => Sys2Proof.Machine.execNlz n s
  | .dnz n => Sys2Proof.Machine.execDnz n s
  | .mon n => Sys2Proof.Machine.execMon n s
  | .skp c sr dr => Sys2Proof.Machine.execSkp c sr dr s
  | .swap cm1 cld sr dr => Sys2Proof.Machine.execSwap cm1 cld sr dr s
  | .rand cm1 cld sr dr => Sys2Proof.Machine.execRand cm1 cld sr dr s
  | .rexo cm1 cld sr dr => Sys2Proof.Machine.execRexo cm1 cld sr dr s
  | .rora cm1 cld sr dr => Sys2Proof.Machine.execRora cm1 cld sr dr s
  | .radd adc ad1 cm1 cld sr dr => Sys2Proof.Machine.execRadd adc ad1 cm1 cld sr dr s
  | .copy sr dr => Sys2Proof.Machine.execCopy sr dr s
  | .rclr dr => Sys2Proof.Machine.execRclr dr s
  | .rinc dr => Sys2Proof.Machine.execRinc dr s
  | .rdcr dr => Sys2Proof.Machine.execRdcr dr s
  | .rsub sr dr => Sys2Proof.Machine.execRsub sr dr s
  | .exit => Sys2Proof.Machine.execExit s
  | .bsetZro bn dr => Sys2Proof.Machine.execBsetZro bn dr s
  | .bsetOne bn dr => Sys2Proof.Machine.execBsetOne bn dr s
  | .bsetBcm bn dr => Sys2Proof.Machine.execBsetBcm bn dr s
  | .bsetBac bn dr => Sys2Proof.Machine.execBsetBac bn dr s
  | .bskpZro bn dr => Sys2Proof.Machine.execBskpZro bn dr s
  | .bskpOne bn dr => Sys2Proof.Machine.execBskpOne bn dr s
  | .bskpBcm bn dr => Sys2Proof.Machine.execBskpBcm bn dr s
  | .bskpBac bn dr => Sys2Proof.Machine.execBskpBac bn dr s
  | .bstc bn dr => Sys2Proof.Machine.execBstc bn dr s
  | .bsta bn dr => Sys2Proof.Machine.execBsta bn dr s
  | .bldc bn dr => Sys2Proof.Machine.execBldc bn dr s
  | .blda bn dr => Sys2Proof.Machine.execBlda bn dr s
  | .banc bn dr => Sys2Proof.Machine.execBanc bn dr s
  | .band bn dr => Sys2Proof.Machine.execBand bn dr s
  | .borc bn dr => Sys2Proof.Machine.execBorc bn dr s
  | .bora bn dr => Sys2Proof.Machine.execBora bn dr s
  | .sht ty cnt => Sys2Proof.Machine.execSht ty cnt s
  | .shd ty cnt => Sys2Proof.Machine.execShd ty cnt s
  | .sha ty cnt => Sys2Proof.Machine.execSha ty cnt s
  | .sad ty cnt => Sys2Proof.Machine.execSad ty cnt s
  | .iot operand => Sys2Proof.Machine.execIot operand s
  | .iox dev => Sys2Proof.Machine.execIox dev s
  | .tra r => Sys2Proof.Machine.execTra r s
  | .trr r => Sys2Proof.Machine.execTrr r s
  | .mcl r => Sys2Proof.Machine.execMcl r s
  | .mst r => Sys2Proof.Machine.execMst r s
  | .opcom => Sys2Proof.Machine.execOpcom s
  | .iof => Sys2Proof.Machine.execIof s
  | .ion => Sys2Proof.Machine.execIon s
  | .pof => Sys2Proof.Machine.execPof s
  | .piof => Sys2Proof.Machine.execPiof s
  | .sex => Sys2Proof.Machine.execSex s
  | .rex => Sys2Proof.Machine.execRex s
  | .pon => Sys2Proof.Machine.execPon s
  | .pion => Sys2Proof.Machine.execPion s
  | .ioxt => Sys2Proof.Machine.execIoxt s
  | .exam => Sys2Proof.Machine.execExam s
  | .depo => Sys2Proof.Machine.execDepo s
  | .addd => Sys2Proof.Machine.execAddd s
  | .subd => Sys2Proof.Machine.execSubd s
  | .comd => Sys2Proof.Machine.execComd s
  | .tset => Sys2Proof.Machine.execTset s
  | .pack => Sys2Proof.Machine.execPack s
  | .upack => Sys2Proof.Machine.execUpack s
  | .shde => Sys2Proof.Machine.execShde s
  | .rdus => Sys2Proof.Machine.execRdus s
  | .bfill => Sys2Proof.Machine.execBfill s
  | .movb => Sys2Proof.Machine.execMovb s
  | .movbf => Sys2Proof.Machine.execMovbf s
  | .init => Sys2Proof.Machine.execInit s
  | .entr => Sys2Proof.Machine.execEntr s
  | .leave => Sys2Proof.Machine.execLeave s
  | .eleav => Sys2Proof.Machine.execEleav s
  | .setpt => Sys2Proof.Machine.execSetpt s
  | .clept => Sys2Proof.Machine.execClept s
  | .clnreent => Sys2Proof.Machine.execClnreent s
  | .chreentpages => Sys2Proof.Machine.execChreentpages s
  | .clepu => Sys2Proof.Machine.execClepu s
  | .wglob => Sys2Proof.Machine.execWglob s
  | .rglob => Sys2Proof.Machine.execRglob s
  | .inspl => Sys2Proof.Machine.execInspl s
  | .rempl => Sys2Proof.Machine.execRempl s
  | .cnrek => Sys2Proof.Machine.execCnrek s
  | .clpt => Sys2Proof.Machine.execClpt s
  | .enpt => Sys2Proof.Machine.execEnpt s
  | .rept => Sys2Proof.Machine.execRept s
  | .lbit => Sys2Proof.Machine.execLbit s
  | .lbitp => Sys2Proof.Machine.execLbitp s
  | .sbit => Sys2Proof.Machine.execSbit s
  | .sbitp => Sys2Proof.Machine.execSbitp s
  | .lbytp => Sys2Proof.Machine.execLbytp s
  | .sbytp => Sys2Proof.Machine.execSbytp s
  | .tsetp => Sys2Proof.Machine.execTsetp s
  | .rdusp => Sys2Proof.Machine.execRdusp s
  | .lbyt => Sys2Proof.Machine.execLbyt s
  | .sbyt => Sys2Proof.Machine.execSbyt s
  | .geco => Sys2Proof.Machine.execGeco s
  | .mix3 => Sys2Proof.Machine.execMix3 s
  | .lwcs => Sys2Proof.Machine.execLwcs s
  | .versn => Sys2Proof.Machine.execVersn s
  | .exr sr ign => Sys2Proof.Machine.execExr sr ign s
  | .rdiv sr ign => Sys2Proof.Machine.execRdiv sr ign s
  | .rmpy sr dr => Sys2Proof.Machine.execRmpy sr dr s
  | .lasb delta => Sys2Proof.Machine.execLasb delta s
  | .sasb delta => Sys2Proof.Machine.execSasb delta s
  | .lacb delta => Sys2Proof.Machine.execLacb delta s
  | .sacb delta => Sys2Proof.Machine.execSacb delta s
  | .lxsb delta => Sys2Proof.Machine.execLxsb delta s
  | .lxcb delta => Sys2Proof.Machine.execLxcb delta s
  | .szsb delta => Sys2Proof.Machine.execSzsb delta s
  | .szcb delta => Sys2Proof.Machine.execSzcb delta s
  | .ldatx delta => Sys2Proof.Machine.execLdatx delta s
  | .ldxtx delta => Sys2Proof.Machine.execLdxtx delta s
  | .lddtx delta => Sys2Proof.Machine.execLddtx delta s
  | .ldbtx delta => Sys2Proof.Machine.execLdbtx delta s
  | .statx delta => Sys2Proof.Machine.execStatx delta s
  | .stztx delta => Sys2Proof.Machine.execStztx delta s
  | .stdtx delta => Sys2Proof.Machine.execStdtx delta s
  | .movew0 => Sys2Proof.Machine.execMovew0 s
  | .movew1 => Sys2Proof.Machine.execMovew1 s
  | .movew2 => Sys2Proof.Machine.execMovew2 s
  | .movew3 => Sys2Proof.Machine.execMovew3 s
  | .movew4 => Sys2Proof.Machine.execMovew4 s
  | .movew5 => Sys2Proof.Machine.execMovew5 s
  | .movew6 => Sys2Proof.Machine.execMovew6 s
  | .movew7 => Sys2Proof.Machine.execMovew7 s
  | .movew10 => Sys2Proof.Machine.execMovew10 s
  | .identPl10 => Sys2Proof.Machine.execIdentPl10 s
  | .identPl11 => Sys2Proof.Machine.execIdentPl11 s
  | .identPl12 => Sys2Proof.Machine.execIdentPl12 s
  | .identPl13 => Sys2Proof.Machine.execIdentPl13 s
  | .srb lv => Sys2Proof.Machine.execSrb lv s
  | .lrb lv => Sys2Proof.Machine.execLrb lv s
  | .irw lv reg => Sys2Proof.Machine.execIrw lv reg s
  | .irr lv reg => Sys2Proof.Machine.execIrr lv reg s

end Sys2Proof.Machine
end

