-- ==== Sys2Proof/Machine/Step.lean ====
section
/-! DEFINITION. One step of the machine (60_exceptions.md R700), and an instruction placed where the next step fetches
it. -/

namespace Sys2Proof.Machine

/-- One step (R700): a stopped CPU does nothing but let the host act (step 0); else host events, level selection,
fetch, decode, and the instruction's meaning. -/
def step (s : State) : Host.Outcome State Fault Refusal :=
  match s.run with
  | .stopped => .next s.takeEvents
  | .running => stepWith exec s

/-- The instruction word stored where the next step fetches its instruction (log 3). Every instruction is one word. -/
def State.withFetchWord (s : State) (_nbits w : Nat) : State := s.storeAtFetch (BitVec.ofNat 16 w)

end Sys2Proof.Machine
end

