-- ==== Sys2Proof/Safety.lean ====
section
/-! DEFINITION. The terms statements are made in: well-formed states, flat memory, single bytes of the machine's stores,
what an instruction leaves as it was. -/

namespace Sys2Proof.Machine

open Sys2Proof Sys2Proof.Config

/-! ## Well-formed states -/

/-- The parameters are legal (R12); both stores are in canonical form and hold nothing beyond PHYS_WORDS words or the
512 words of PT (R84, R97). -/
structure State.Wf (s : State) : Prop where
  params : s.params.wf = true
  blockLenBits : s.params.blockLenBits ≤ 15
  mem : s.mem.wf
  pt : s.pt.wf
  memInstalled : ∀ c ∈ s.mem, c.1 < 2 * s.params.physWords
  ptInstalled : ∀ c ∈ s.pt, c.1 < 1024

/-- Memory management is off and all of the logical space is installed: no access can fault (R90). -/
structure State.Flat (s : State) : Prop where
  off : s.poni = false
  installed : 65536 ≤ s.params.physWords

/-! ## Single bytes -/

/-- The two stores: physical memory (R84) and the page tables (R97). -/
inductive Store where
  | mem | pt
deriving DecidableEq, Repr

/-- One byte of a store: the machine's read of one byte. -/
def State.byteOf (s : State) (c : Store × Nat) : Byte :=
  match c.1 with
  | .mem => s.mem.byteAt c.2
  | .pt => s.pt.byteAt c.2

/-- The two bytes of the word at a place, the left one first (R81). -/
def cellsOf : TransTarget → List (Store × Nat)
  | .phys pa => [(.mem, 2 * pa.toNat), (.mem, 2 * pa.toNat + 1)]
  | .table i => [(.pt, 2 * i.toNat), (.pt, 2 * i.toNat + 1)]

/-- Where a logical address is with memory management off: the page-table range in PT, the rest in bank 0 (R90, R97). -/
def flatPlace (a : Word) : TransTarget := if inTableRange a then .table (tableIndex a) else .phys (a.setWidth 24)

/-- The word at a logical address with memory management off. -/
def State.flatWord (s : State) (a : Word) : Word := s.readPlace (flatPlace a)

/-- The byte of a byte position with memory management off. -/
def flatCell (p : BytePos) : Store × Nat :=
  if p.half then (cellsOf (flatPlace p.addr))[1]?.getD (.mem, 0) else (cellsOf (flatPlace p.addr))[0]?.getD (.mem, 0)

/-- The `n` byte positions from one on (R405). -/
def positions : Nat → BytePos → List BytePos
  | 0, _ => []
  | n + 1, p => p :: positions n p.next

/-! ## What stays as it was -/

/-- Every byte of both stores but those listed is as it was. -/
def SameBytesBut (cells : List (Store × Nat)) (s t : State) : Prop :=
  ∀ c, c ∉ cells → t.byteOf c = s.byteOf c

/-- Every byte of both stores is as it was. -/
def SameBytes (s t : State) : Prop := ∀ c, t.byteOf c = s.byteOf c

/-- Physical memory is as it was, byte by byte, and the page tables but for the marks PGU (bit 11) and WIP (bit 12)
that translation sets (R96): bits 3 and 4 of left bytes, which are the even ones. -/
def SameBytesButMarks (s t : State) : Prop :=
  (∀ n, t.mem.byteAt n = s.mem.byteAt n) ∧
  ∀ n i, (n % 2 = 1 ∨ (i ≠ 3 ∧ i ≠ 4)) → (t.pt.byteAt n).getLsbD i = (s.pt.byteAt n).getLsbD i

/-- What an access that answers may change: the marks PGU (bit 11) and WIP (bit 12) of page-table words, which it sets
and never clears (R96). -/
structure OnlyMarks (s t : State) : Prop where
  rest : t = s.setPt t.pt
  others : ∀ i k, k ≠ 11 → k ≠ 12 → (t.pt.wordAt i).getLsbD k = (s.pt.wordAt i).getLsbD k
  kept : ∀ i k, (s.pt.wordAt i).getLsbD k = true → (t.pt.wordAt i).getLsbD k = true

/-- The registers of every level but the running one are as they were. -/
def SameOtherLevels (s t : State) : Prop := ∀ lv, lv ≠ s.pil → t.level lv = s.level lv

/-- Everything that is not a working register, not a store and not between machine and host is as it was. -/
structure SameSystem (s t : State) : Prop where
  pcr : t.pcr = s.pcr
  pil : t.pil = s.pil
  ioni : t.ioni = s.ioni
  poni : t.poni = s.poni
  sexi : t.sexi = s.sexi
  pid : t.pid = s.pid
  pie : t.pie = s.pie
  iic : t.iic = s.iic
  iie : t.iie = s.iie
  pvl : t.pvl = s.pvl
  stbnk : t.stbnk = s.stbnk
  stsrt : t.stsrt = s.stsrt
  cmbnk : t.cmbnk = s.cmbnk
  run : t.run = s.run
  params : t.params = s.params

/-- What only the entitled may reach (R732), but for PID, IIC and PVL, which a trap or a monitor call writes. -/
structure SameControl (s t : State) : Prop where
  pcr : t.pcr = s.pcr
  pil : t.pil = s.pil
  ioni : t.ioni = s.ioni
  poni : t.poni = s.poni
  sexi : t.sexi = s.sexi
  pie : t.pie = s.pie
  iie : t.iie = s.iie
  stbnk : t.stbnk = s.stbnk
  stsrt : t.stsrt = s.stsrt
  cmbnk : t.cmbnk = s.cmbnk
  run : t.run = s.run
  params : t.params = s.params
  outbox : t.outbox = s.outbox

/-- What an internal interrupt of cause `c` leaves (R712): PVL and IIC latched, PID[14] set, all else as it was but the
count of open values. -/
structure Requested (c : IntCode) (s t : State) : Prop where
  pvl : t.pvl = s.pil
  iic : t.iic = s.intCode c ∨ (s.iic ≠ 0 ∧ t.iic = s.iic)
  pid : t.pid = s.pid ||| 0o40000
  regs : t.regs = s.regs
  mem : t.mem = s.mem
  pt : t.pt = s.pt
  control : SameControl s t
  inbox : t.inbox = s.inbox

/-! ## Requests and flags -/

/-- A level is requesting when its PID bit and its PIE bit are both 1 (R702). -/
def State.Requesting (s : State) (lv : Level) : Prop := s.pid.getLsbD lv.toNat = true ∧ s.pie.getLsbD lv.toNat = true

/-- The flags after an addition of `a`, `b` and `cin` (R204): C is the carry out of bit 15; on signed overflow O and Q
are 1, else Q is 0 and O stays; the other flags stay. -/
structure AddFlags (a b : Word) (cin : Bool) (old new : Byte) : Prop where
  c : new.getLsbD 6 = decide (65536 ≤ a.toNat + b.toNat + cin.toNat)
  q : new.getLsbD 4 = decide (a.toInt + b.toInt + cin.toNat < -32768 ∨ 32767 < a.toInt + b.toInt + cin.toNat)
  o : new.getLsbD 5 = (new.getLsbD 4 || old.getLsbD 5)
  rest : ∀ n, n ≠ 4 → n ≠ 5 → n ≠ 6 → new.getLsbD n = old.getLsbD n

/-! ## Fields of bytes with memory management off -/

/-- The bytes of a field (R405, R431). -/
def State.bytesAt (s : State) (n : Nat) (p : BytePos) : List Byte := (positions n p).map fun q => s.byteOf (flatCell q)

/-- The cells of a field. -/
def fieldCells (n : Nat) (p : BytePos) : List (Store × Nat) := (positions n p).map flatCell

/-- The cells of a BCD operand's field (R431). -/
def DecimalOp.cells (o : DecimalOp) : List (Store × Nat) := fieldCells (bcdBytes o.len) o.pos

/-- The decimal number in a BCD operand's field, or the position of its first illegal code (R431). -/
def State.bcdAt (s : State) (o : DecimalOp) : Except BytePos Decimal := o.bcd (s.bytesAt (bcdBytes o.len) o.pos)

/-- The end of a decimal instruction without error: the error return is skipped, no register but P changes, and no byte
outside the listed cells (R433, R434). -/
structure DecimalOk (cells : List (Store × Nat)) (s t : State) : Prop where
  cur : t.cur = { s.cur with p := s.cur.p + 2 }
  others : SameOtherLevels s t
  system : SameSystem s t
  bytes : SameBytesBut cells s t

/-- The end of a decimal instruction with an error: the error return, the code in D[4:0], and no byte outside the listed
cells changed (R433, R434). -/
structure DecimalError (code : BitVec 5) (cells : List (Store × Nat)) (s t : State) : Prop where
  cur : t.cur = { s.cur with d := s.cur.d.extractLsb' 5 11 ++ code, p := s.cur.p + 1 }
  others : SameOtherLevels s t
  system : SameSystem s t
  bytes : SameBytesBut cells s t

/-! ## Classes of instructions -/

/-- The instructions that write memory, and EXR, which may execute one of them. -/
def mayStore : Instr → Bool
  | .stz _ | .sta _ | .stt _ | .stx _ | .std _ | .stf _ | .min _ => true
  | .sbyt | .bfill | .movb | .movbf | .addd | .subd | .pack | .upack | .shde => true
  | .movew0 | .movew1 | .movew2 | .movew3 | .movew4 | .movew5 | .movew6 | .movew7 | .movew10 => true
  | .init | .entr | .eleav | .srb _ | .depo | .tset => true
  | .statx _ | .stztx _ | .stdtx _ | .sasb _ | .sacb _ | .szsb _ | .szcb _ => true
  | .sbit | .sbitp | .sbytp | .tsetp | .setpt | .clept | .clepu => true
  | .exr _ _ => true
  | _ => false

/-- The instructions that write a register of another level: MON (T of level 14), IRW, LRB; and EXR, which may execute
one of them. -/
def writesOtherLevel : Instr → Bool
  | .mon _ | .irw _ _ | .lrb _ | .exr _ _ => true
  | _ => false

/-- The instructions that write the control state of `SameControl`, and EXR, which may execute one of them. -/
def writesControl : Instr → Bool
  | .iof | .ion | .pof | .pon | .piof | .pion | .sex | .rex | .wait _ => true
  | .trr _ | .mcl _ | .mst _ | .wglob | .exr _ _ => true
  | _ => false

/-- The privileged instructions (R731), by constructor. -/
def isPrivileged : Instr → Bool
  | .iof | .ion | .pof | .pon | .piof | .pion | .sex | .rex | .opcom | .wait _ => true
  | .identPl10 | .identPl11 | .identPl12 | .identPl13 | .iox _ | .ioxt | .iot _ => true
  | .tra _ | .trr _ | .mcl _ | .mst _ | .irr _ _ | .irw _ _ | .lrb _ | .srb _ => true
  | .exam | .depo | .lwcs | .rdus | .tset => true
  | .chreentpages | .clept | .clnreent | .clpt | .cnrek | .enpt | .inspl | .rempl | .rept | .setpt | .clepu => true
  | .lacb _ | .lasb _ | .lxcb _ | .lxsb _ | .sacb _ | .sasb _ | .szcb _ | .szsb _ => true
  | .lbit | .lbitp | .lbytp | .sbit | .sbitp | .sbytp | .tsetp | .rdusp | .wglob | .rglob => true
  | .ldatx _ | .ldbtx _ | .lddtx _ | .ldxtx _ | .statx _ | .stdtx _ | .stztx _ => true
  | .movew2 | .movew5 | .movew6 | .movew7 | .movew10 => true
  | _ => false

end Sys2Proof.Machine
end

