-- ==== Sys2Proof/Certificates/Slice0/Obligations.lean ====
section
/-! DEFINITION. The statements for the provers. -/

open Sys2Proof Sys2Proof.Config Sys2Proof.Machine

/-! ## Encoding and the step -/

/-- Every well-formed instruction, with every operand at every value its encoding admits, decodes from its own bytes,
whatever bytes follow. Which RADD words count as named forms is log 18, shift and IDENT codes are log 14 and 15. -/
def Obligations.DecodeOfEncode : Prop :=
  ∀ (i : Instr) (rest : List Byte), i.wf = true → decode (encode i ++ rest) = .ok (i, rest)

/-- A word decodes to at most one instruction, a well-formed one, and that instruction's word is the word decoded: no
bit of an encoding is dropped and no two instructions share a word. The codes of log 14, 15 and 18 are the model's. -/
def Obligations.EncodeOfDecode : Prop :=
  ∀ (w : Word) (i : Instr), decodeWord w = some i → encodeWord i = w ∧ i.wf = true

/-- Words the source prints with their instructions; and five unassigned words, which have none: a shift with bit 6
set, the seventh xxTX type, an internal-register word with bits 5-4 not 00, MOVEW type 0o11, an IDENT without a level
code. That the five words are unassigned is the spec's decision D17 and, for the IDENT code, log 15. -/
def Obligations.PrintedWordsDecode : Prop :=
    decodeWord 0o044774#16 = some (.lda ⟨false, false, true, -4⟩) ∧
  decodeWord 0o045022#16 = some (.lda ⟨false, true, false, 0o22⟩) ∧
  decodeWord 0o046417#16 = some (.lda ⟨true, false, true, 0o17⟩) ∧
  decodeWord 0o135403#16 = some (.jpl ⟨false, true, true, 3⟩) ∧
  decodeWord 0o132374#16 = some (.jpc (-4)) ∧
  decodeWord 0o140041#16 = some (.skp .eql .l .d) ∧
  decodeWord 0o144447#16 = some (.rand false false .l .x) ∧
  decodeWord 0o146035#16 = some (.radd false false false false .b .a) ∧
  decodeWord 0o146151#16 = some (.copy .a .d) ∧
  decodeWord 0o146142#16 = some .exit ∧
  decodeWord 0o146663#16 = some (.rsub .t .b) ∧
  decodeWord 0o141257#16 = some (.rmpy .a .x) ∧
  decodeWord 0o140650#16 = some (.exr .a 0) ∧
  decodeWord 0o150201#16 = some (.mcl 1) ∧
  decodeWord 0o164306#16 = some (.iox 0o306) ∧
  decodeWord 0o152760#16 = some (.lrb 14) ∧
  decodeWord 0o154100#16 = none ∧ decodeWord 0o143317#16 = none ∧ decodeWord 0o150020#16 = none ∧
  decodeWord 0o143111#16 = none ∧ decodeWord 0o143600#16 = none

/-- A step of a running CPU, after the host's events and level selection (`State.front`), runs the instruction whose
two bytes stand where the fetch at P goes; the fetch itself changes nothing but marks. The order of a step is the
spec's decision D19 and D20 (log 46). -/
def Obligations.StepRunsDecoded : Prop :=
  ∀ (s s1 : State) (p : TransTarget) (i : Instr), s.run = .running →
    locate .fetch .untagged s.front.cur.p s.front = .ok p s1 →
    decode ((cellsOf p).map s1.byteOf) = .ok (i, []) →
    step s = exec i s1 ∧ OnlyMarks s.front s1

/-- A step whose fetch faults, or whose fetched word is unassigned, is the fault, with P on the instruction. While
stopped the CPU fetches nothing: the step is the host's events alone, and every register and PIL stay; with no host
event all else but the queue of host events stays too; the operator's start makes it run again. Rests on the decisions
D17, D20 and D33 (log 41, 42, 45). -/
def Obligations.StepWithoutInstruction : Prop :=
  ((∀ (s s1 : State) (c : IntCode), s.run = .running →
      locate .fetch .untagged s.front.cur.p s.front = .trap c s1 → step s = takeTrap c s.front) ∧
    (∀ (s s1 : State) (p : TransTarget) (e : DecodeError), s.run = .running →
      locate .fetch .untagged s.front.cur.p s.front = .ok p s1 →
      decode ((cellsOf p).map s1.byteOf) = .error e → step s = takeTrap .illegalInstruction s1)) ∧
  (∀ s : State, s.run = .stopped →
      step s = .next s.takeEvents ∧ s.takeEvents.regs = s.regs ∧ s.takeEvents.pil = s.pil ∧
      (s.inbox.headD [] = [] → s.takeEvents = s.setInbox s.inbox.tail) ∧
      (s.inbox.headD [] = [.operatorStart] → s.takeEvents = (s.setInbox s.inbox.tail).setRun .running))

/-! ## The interrupt system -/

/-- Level selection: with the interrupt system off nothing changes; with it on PIL alone changes, to the highest
requesting level, or to 0 when none requests. The formula is the spec's decision D19 (log 46). -/
def Obligations.LevelSelection : Prop :=
  ∀ s : State,
    (s.ioni = false → s.select = s) ∧
    (s.ioni = true →
      s.select = s.setPil s.select.pil ∧
      (∀ lv, s.Requesting lv → lv.toNat ≤ s.select.pil.toNat) ∧
      (s.Requesting s.select.pil ∨ s.select.pil = 0))

/-- A device's request sets PID bits 10 to 13 and 15 and no other, clears none, and changes nothing else. Host events
change no working register, no PIL, PIE, IIE, PCR, IONI, PONI, SEXI, page table or global pointer, and clear no PID
bit. The form of the host's events is the model's (log 9). -/
def Obligations.HostEventsFrame : Prop :=
  (∀ (s : State) (lv : Word),
      s.takeEvent (.deviceRequest lv) = s.setPid (s.takeEvent (.deviceRequest lv)).pid ∧
      ∀ n, (s.takeEvent (.deviceRequest lv)).pid.getLsbD n =
        (s.pid.getLsbD n || (lv.getLsbD n && decide ((10 ≤ n ∧ n ≤ 13) ∨ n = 15)))) ∧
  (∀ s : State,
      s.takeEvents.regs = s.regs ∧ s.takeEvents.pil = s.pil ∧ s.takeEvents.pie = s.pie ∧ s.takeEvents.iie = s.iie ∧
      s.takeEvents.pcr = s.pcr ∧ s.takeEvents.ioni = s.ioni ∧ s.takeEvents.poni = s.poni ∧
      s.takeEvents.sexi = s.sexi ∧ s.takeEvents.pt = s.pt ∧ s.takeEvents.stbnk = s.stbnk ∧
      s.takeEvents.stsrt = s.stsrt ∧ s.takeEvents.cmbnk = s.cmbnk ∧ s.takeEvents.outbox = s.outbox ∧
      ∀ n, s.pid.getLsbD n = true → s.takeEvents.pid.getLsbD n = true)

/-- Taking an internal interrupt of kind fault: if the interrupt system is on, level 14 and the cause are enabled and a
level below 14 runs, PVL takes the level, IIC the code (or keeps an unread one), PID[14] is set, and everything else, P
included, stays; if not, the machine stops. After a fault has been taken, the next fetch is at level 14's own P, unless
level 15 is requesting or the host acts in between. The code of a cause, and with it its IIE bit, is the parameter
IIC_CODES; its default table is that of R710. The mechanism is the spec's decision D20, the default codes are log 13,
the stop is log 11, the latched code log 10. -/
def Obligations.TrapTaken : Prop :=
  (∀ (c : IntCode) (s : State),
      let takeable : Prop := s.ioni = true ∧ s.pie.getLsbD 14 = true ∧
        s.iie.getLsbD (s.intCode c).toNat = true ∧ s.pil.toNat < 14
      (takeable → ∃ t, takeTrap c s = .next t ∧ Requested c s t) ∧
      (¬takeable → takeTrap c s = .fault (.trapNotTakeable c))) ∧
  (∀ (c : IntCode) (s t : State), takeTrap c s = .next t → s.inbox.headD [] = [] → ¬s.Requesting 15 →
      t.front.pil = 14 ∧ t.front.cur = s.level 14 ∧ t.front.regs = s.regs ∧ t.front.pvl = s.pil) ∧
  (∀ s : State, s.params.iicCodes = .default →
      s.intCode .monitorCall = 1 ∧ s.intCode .memoryProtectViolation = 2 ∧ s.intCode .pageFault = 3 ∧
      s.intCode .illegalInstruction = 4 ∧ s.intCode .errorFlag = 5 ∧ s.intCode .privilegedInstruction = 6 ∧
      s.intCode .ioxError = 7 ∧ s.intCode .memoryParityError = 8 ∧ s.intCode .memoryOutOfRange = 9 ∧
      s.intCode .powerFail = 10)

/-- The error flag's interrupt: raised after an instruction in which Z of the running level went from 0 to 1, if its
cause is enabled; otherwise nothing more happens. Later statements say `s.raiseErrorFlag u` for the state after an
instruction that began in `s` and left `u`. That Z interrupts is general knowledge and decision D20 (log 45). -/
def Obligations.ErrorFlagRequest : Prop :=
  ∀ before after : State,
    let raised : Prop :=
      before.cur.z = false ∧ after.cur.z = true ∧ after.iie.getLsbD (after.intCode .errorFlag).toNat = true
    (raised → Requested .errorFlag after (before.raiseErrorFlag after)) ∧
    (¬raised → before.raiseErrorFlag after = after)

/-- WAIT: with the interrupt system off the CPU stops; on level 0 it is ignored; else the level gives itself up. P is
that of the next instruction and nothing else changes. The number has no effect. The handler's end returns to the
interrupted level: WAIT on level lv > 0 with the interrupt system on clears PID bit lv alone, and the next fetch is at
the own P of the highest level still requesting, its registers untouched. Rests on the decisions D33 and D19 (log 46,
49). -/
def Obligations.WaitAndReturn : Prop :=
  (∀ (n : BitVec 8) (s : State), s.entitled = true →
      exec (.wait n) s = .next (
        if s.ioni = false then (s.setCur { s.cur with p := s.cur.p + 1 }).setRun .stopped
        else if s.pil = 0 then s.setCur { s.cur with p := s.cur.p + 1 }
        else (s.setCur { s.cur with p := s.cur.p + 1 }).setPid (s.pid &&& ~~~BitVec.twoPow 16 s.pil.toNat))) ∧
  (∀ (n : BitVec 8) (s : State), s.entitled = true → s.ioni = true → s.pil ≠ 0 → s.inbox.headD [] = [] →
      ∃ t, exec (.wait n) s = .next t ∧ t.cur.p = s.cur.p + 1 ∧
        (∀ k, t.pid.getLsbD k = (s.pid.getLsbD k && decide (k ≠ s.pil.toNat))) ∧ t.pie = s.pie ∧
        ∀ lv, lv ≠ s.pil → s.Requesting lv → (∀ k, k ≠ s.pil → s.Requesting k → k.toNat ≤ lv.toNat) →
          t.front.pil = lv ∧ t.front.cur = s.level lv ∧ t.front.ioni = s.ioni ∧ t.front.poni = s.poni ∧
            t.front.sexi = s.sexi)

/-- MON, in any program: T of level 14 takes the sign-extended call number, P goes on, and the monitor call is latched
and PID[14] set if its cause is enabled; nothing else changes. Rests on the decisions D20 and D21 (log 45, 51); its
code is the parameter IIC_CODES (log 13). -/
def Obligations.MonitorCall : Prop :=
  ∀ (n : BitVec 8) (s : State), ∃ t, exec (.mon n) s = .next t ∧
    (t.level 14).t = n.signExtend 16 ∧
    t.cur = { s.cur with t := if s.pil = 14 then n.signExtend 16 else s.cur.t, p := s.cur.p + 1 } ∧
    (s.pil ≠ 14 → t.level 14 = { s.level 14 with t := n.signExtend 16 }) ∧
    (∀ lv, lv ≠ 14 → lv ≠ s.pil → t.level lv = s.level lv) ∧
    SameControl s t ∧ t.mem = s.mem ∧ t.pt = s.pt ∧
    (s.iie.getLsbD (s.intCode .monitorCall).toNat = false → t.pid = s.pid ∧ t.iic = s.iic ∧ t.pvl = s.pvl) ∧
    (s.iie.getLsbD (s.intCode .monitorCall).toNat = true → t.pid = s.pid ||| 0o40000 ∧ t.pvl = s.pil ∧
      (t.iic = s.intCode .monitorCall ∨ (s.iic ≠ 0 ∧ t.iic = s.iic)))

/-! ## Reset and the whole machine -/

/-- What the spec says of power-up: PID = PIE = 0, level 0 runs, and, by the spec's decision, the CPU is running with
the interrupt system, memory management and extended addressing off. PID, PIE and the level are the source's; IONI,
PONI, SEXI and Run are the spec's decision D24 (log 4). -/
def Obligations.PowerUp : Prop :=
  State.reset.pid = 0 ∧ State.reset.pie = 0 ∧ State.reset.pil = 0 ∧ State.reset.run = .running ∧
  State.reset.ioni = false ∧ State.reset.poni = false ∧ State.reset.sexi = false

/-- The state after power-up is well formed: its stores are in canonical form and hold nothing beyond what is
installed. The canonical form is the model's (log 1, 17); that memory lists nothing is log 1. -/
def Obligations.ResetWf : Prop :=
 State.reset.Wf

/-- Every step keeps a state well formed: the parameters stay legal, both stores stay in canonical form, and nothing is
ever stored beyond PHYS_WORDS or the 512 words of the page tables. The canonical form is the model's (log 1, 17). -/
def Obligations.StepKeepsWf : Prop :=
 ∀ s t : State, s.Wf → step s = .next t → t.Wf

/-- A program without entitlement cannot touch what only the entitled may reach: whatever instruction it executes, PIE,
IIE, PCR, IONI, PONI, SEXI, the run state, the global pointers, the I/O space and every register of every other level
but T of level 14 stay; IIC, PVL and PID change only as an internal interrupt latches them. That an unentitled program
traps is the spec's decision D18 (log 42). -/
def Obligations.UnentitledIsolation : Prop :=
  ∀ (i : Instr) (s t : State), s.entitled = false → exec i s = .next t →
    SameControl s t ∧ t.inbox = s.inbox ∧
    (∀ lv, lv ≠ s.pil → t.level lv = { s.level lv with t := (t.level lv).t } ∧
      (lv ≠ 14 → t.level lv = s.level lv)) ∧
    ((t.pid = s.pid ∧ t.pvl = s.pvl ∧ t.iic = s.iic) ∨
      (t.pid = s.pid ||| 0o40000 ∧ t.pvl = s.pil ∧
        ((∃ c, t.iic = s.intCode c) ∨ (s.iic ≠ 0 ∧ t.iic = s.iic))))

/-- Every privileged instruction in a program without entitlement raises PrivilegedInstruction before any effect. The
fault is the spec's decision D18 (log 42). -/
def Obligations.PrivilegedTraps : Prop :=
  ∀ (i : Instr) (s : State), isPrivileged i = true → s.entitled = false →
    exec i s = takeTrap .privilegedInstruction s

/-- An instruction that is not one that stores leaves every byte of memory as it was, and the page tables but for the
marks of translation. Which instructions store is read from the rules of each; the marks are log 6. -/
def Obligations.OnlyStoresWriteMemory : Prop :=
  ∀ (i : Instr) (s t : State), mayStore i = false → exec i s = .next t → SameBytesButMarks s t

/-- Every instruction but MON, IRW, LRB and EXR leaves the registers of every level but the running one. Every
instruction but those of the interrupt and memory management systems leaves PIL, PIE, IIE, PCR, IONI, PONI, SEXI, the
run state and the global pointers. The two lists of instructions are read from the rules of each. -/
def Obligations.OnlySystemWrites : Prop :=
  (∀ (i : Instr) (s t : State), writesOtherLevel i = false → exec i s = .next t → SameOtherLevels s t) ∧
  (∀ (i : Instr) (s t : State), writesControl i = false → exec i s = .next t →
      SameControl s { t with outbox := s.outbox })

/-! ## Memory -/

/-- With memory management off, logical address a is physical word a of bank 0, or word a - 0o177000 of the page tables
from 0o177000 on: two bytes, the left one bits 15-8 at the even byte. A word written is read back, and every other word
and byte is as before. The page-table range is the spec's decision D25 (log 47), byte order D3 (log 17, 48). -/
def Obligations.FlatMemory : Prop :=
  ∀ (s : State) (a v : Word), s.Flat →
    memRead a s = .ok (s.flatWord a) s ∧
    (a.toNat < 65024 → s.flatWord a = s.byteOf (.mem, 2 * a.toNat) ++ s.byteOf (.mem, 2 * a.toNat + 1)) ∧
    (65024 ≤ a.toNat → s.flatWord a =
      s.byteOf (.pt, 2 * (a.toNat - 65024)) ++ s.byteOf (.pt, 2 * (a.toNat - 65024) + 1)) ∧
    ∃ t, memWrite a v s = .ok () t ∧ t.flatWord a = v ∧ (∀ b, b ≠ a → t.flatWord b = s.flatWord b) ∧
      SameBytesBut (cellsOf (flatPlace a)) s t ∧ t.regs = s.regs ∧ SameSystem s t

/-- An access beyond installed memory raises MemoryOutOfRange and changes nothing: logical addresses with memory
management off, and physical ones. An entitled program reaches the page tables at logical 0o177000 to 0o177777 whether
memory management is on or off, and nothing is marked. A logical write that answers, through whichever table, changes
marks and the two bytes of its place and nothing else, and the word reads back. MemoryOutOfRange and the page-table
range are the spec's decision D25 (log 47), the marks are log 6. -/
def Obligations.AccessPlaces : Prop :=
  ((∀ (s : State) (a v : Word), s.poni = false → a.toNat < 65024 → s.params.physWords ≤ a.toNat →
      memRead a s = .trap .memoryOutOfRange s ∧ memWrite a v s = .trap .memoryOutOfRange s) ∧
    (∀ (s : State) (b a v : Word) (pa : BitVec 24), s.physPlace b a = .phys pa → s.params.physWords ≤ pa.toNat →
      physRead b a s = .trap .memoryOutOfRange s ∧ physWrite b a v s = .trap .memoryOutOfRange s)) ∧
  (∀ (k : AccessKind) (g : TableTag) (a : Word) (s : State), s.entitled = true → 65024 ≤ a.toNat →
      ∃ i : BitVec 9, i.toNat = a.toNat - 65024 ∧ locate k g a s = .ok (.table i) s) ∧
  (∀ (g : TableTag) (a v : Word) (s t : State), memWriteVia g a v s = .ok () t →
      ∃ p u, locate .write g a s = .ok p u ∧ OnlyMarks s u ∧ t = u.writePlace v p ∧ t.readPlace p = v ∧
        SameBytesBut (cellsOf p) u t)

/-- With memory management on, an address outside the page-table range, and in a program without entitlement any
address, goes where `Translate` says, 19 bits wide unless SEXI is 1. PGU of the page-table word it names is set, and
WIP for a write; nothing else changes. A place beyond installed memory raises MemoryOutOfRange; that and Translate's
two faults are raised with nothing changed. Translate is a parameter (D26); the 19-bit cut and the order of marks and
refusal are log 6, MemoryOutOfRange is decision D25 (log 47). -/
def Obligations.TranslatedAccess : Prop :=
  ∀ (k : AccessKind) (g : TableTag) (a : Word) (s : State), s.poni = true → (a.toNat < 65024 ∨ s.entitled = false) →
    let answer := s.params.translate ⟨s.transView, k, s.tableTag g, a⟩
    (∀ target pgu wip, answer = .ok target pgu wip →
      (s.installed (s.physWidth target) = false → locate k g a s = .trap .memoryOutOfRange s) ∧
      (s.installed (s.physWidth target) = true →
        ∃ t, locate k g a s = .ok (s.physWidth target) t ∧ OnlyMarks s t ∧
          (∀ i, pgu = some i → (t.pt.wordAt i.toNat).getLsbD 11 = true) ∧
          (∀ i, k = .write → wip = some i → (t.pt.wordAt i.toNat).getLsbD 12 = true) ∧
          (∀ j n, (t.pt.wordAt j).getLsbD n = true → (s.pt.wordAt j).getLsbD n = false →
            ∃ i : BitVec 9, j = i.toNat ∧ ((n = 11 ∧ pgu = some i) ∨ (n = 12 ∧ k = .write ∧ wip = some i))))) ∧
    (answer = .pageFault → locate k g a s = .trap .pageFault s) ∧
    (answer = .protectViolation → locate k g a s = .trap .memoryProtectViolation s)

/-- The place of a bank and an address: bank[7:0] in extended mode, bank[2:0] in normal mode, above the 16 address
bits; in bank 0 the page-table range reaches the page tables. Reading and writing it, with read after write. The
composition is the spec's decision D27, the diversion D25 (log 47). -/
def Obligations.PhysicalAddress : Prop :=
  ∀ (s : State) (b a v : Word),
    let bank := b.toNat % (if s.sexi = true then 256 else 8)
    ((bank ≠ 0 ∨ a.toNat < 65024) → ∃ pa : BitVec 24, s.physPlace b a = .phys pa ∧
      pa.toNat = bank * 65536 + a.toNat) ∧
    (bank = 0 → 65024 ≤ a.toNat → ∃ i : BitVec 9, s.physPlace b a = .table i ∧ i.toNat = a.toNat - 65024) ∧
    (s.installed (s.physPlace b a) = true →
      physRead b a s = .ok (s.readPlace (s.physPlace b a)) s ∧
      ∃ t, physWrite b a v s = .ok () t ∧ t.readPlace (s.physPlace b a) = v ∧
        SameBytesBut (cellsOf (s.physPlace b a)) s t ∧ t.regs = s.regs ∧ SameSystem s t)

/-! ## Memory reference -/

/-- The eight addressing modes: the sum of P (the address of the instruction), B, or X in mode 4, and the displacement;
then one level of indirection; then X. All sums modulo 2^16; no register changes; a fault of the indirect read is the
fault. -/
def Obligations.EffectiveAddress : Prop :=
  ∀ (d : BitVec 8) (s : State),
    let e := d.signExtend 16
    effAddr ⟨false, false, false, d⟩ s = .ok (s.cur.p + e) s ∧
    effAddr ⟨false, false, true, d⟩ s = .ok (s.cur.b + e) s ∧
    effAddr ⟨true, false, false, d⟩ s = .ok (s.cur.x + e) s ∧
    effAddr ⟨true, false, true, d⟩ s = .ok (s.cur.b + e + s.cur.x) s ∧
    (∀ v s1, memRead (s.cur.p + e) s = .ok v s1 →
      OnlyMarks s s1 ∧ effAddr ⟨false, true, false, d⟩ s = .ok v s1 ∧
      effAddr ⟨true, true, false, d⟩ s = .ok (v + s.cur.x) s1) ∧
    (∀ v s1, memRead (s.cur.b + e) s = .ok v s1 →
      OnlyMarks s s1 ∧ effAddr ⟨false, true, true, d⟩ s = .ok v s1 ∧
      effAddr ⟨true, true, true, d⟩ s = .ok (v + s.cur.x) s1) ∧
    (∀ c s1 x, memRead (s.cur.p + e) s = .trap c s1 → effAddr ⟨x, true, false, d⟩ s = .trap c s) ∧
    (∀ c s1 x, memRead (s.cur.b + e) s = .trap c s1 → effAddr ⟨x, true, true, d⟩ s = .trap c s)

/-- STZ, STA, STT, STX complete wherever the address can be formed and written: the word at EA takes 0, A, T or X, P
goes on, every other register and byte is as it was but for marks. MIN increments the word at EA and skips when it
becomes 0; no flag and no other register or byte changes. The clause about MIN formalises 40_memory_reference.md R216
but for its remark on atomicity. -/
def Obligations.SingleWordStores : Prop :=
  (∀ (m : AddrMode) (s s1 s2 : State) (ea : Word) (p : TransTarget),
      effAddr m s = .ok ea s1 → locate .write .untagged ea s1 = .ok p s2 →
      let done (v : Word) := (s2.writePlace v p).setCur { s.cur with p := s.cur.p + 1 }
      OnlyMarks s s2 ∧
      exec (.stz m) s = .next (done 0) ∧ exec (.sta m) s = .next (done s.cur.a) ∧
      exec (.stt m) s = .next (done s.cur.t) ∧ exec (.stx m) s = .next (done s.cur.x) ∧
      ∀ v, (done v).readPlace p = v ∧ SameBytesBut (cellsOf p) s2 (done v)) ∧
  (∀ (m : AddrMode) (s s1 s2 s3 : State) (ea v : Word) (p : TransTarget),
      effAddr m s = .ok ea s1 → memRead ea s1 = .ok v s2 → locate .write .untagged ea s2 = .ok p s3 →
      let done := (s3.writePlace (v + 1) p).setCur
        { s.cur with p := if v = 0o177777 then s.cur.p + 2 else s.cur.p + 1 }
      OnlyMarks s s3 ∧ exec (.min m) s = .next done ∧ done.readPlace p = v + 1 ∧ SameBytesBut (cellsOf p) s3 done)

/-- A memory instruction whose address cannot be formed, or one of whose operand words cannot be read or written, is
that fault, with every register as it was. A fault at the first word changes nothing but marks, and so do a fault at a
later word that is read and MIN's at its write; STD and STF keep the words already stored. How a fault is taken is the
spec's decision D20 (log 45). -/
def Obligations.MemoryFaults : Prop :=
  (∀ (m : AddrMode) (s s1 s2 : State) (ea : Word) (c : IntCode),
    (effAddr m s = .trap c s1 →
      exec (.stz m) s = takeTrap c s ∧ exec (.sta m) s = takeTrap c s ∧ exec (.stt m) s = takeTrap c s ∧
      exec (.stx m) s = takeTrap c s ∧ exec (.std m) s = takeTrap c s ∧ exec (.stf m) s = takeTrap c s ∧
      exec (.min m) s = takeTrap c s ∧ exec (.lda m) s = takeTrap c s ∧ exec (.ldt m) s = takeTrap c s ∧
      exec (.ldx m) s = takeTrap c s ∧ exec (.ldd m) s = takeTrap c s ∧ exec (.ldf m) s = takeTrap c s ∧
      exec (.add m) s = takeTrap c s ∧ exec (.sub m) s = takeTrap c s ∧ exec (.and m) s = takeTrap c s ∧
      exec (.ora m) s = takeTrap c s ∧ exec (.mpy m) s = takeTrap c s ∧ exec (.fad m) s = takeTrap c s ∧
      exec (.fsb m) s = takeTrap c s ∧ exec (.fmu m) s = takeTrap c s ∧ exec (.fdv m) s = takeTrap c s ∧
      exec (.jmp m) s = takeTrap c s ∧ exec (.jpl m) s = takeTrap c s) ∧
    (effAddr m s = .ok ea s1 → locate .write .untagged ea s1 = .trap c s2 →
      OnlyMarks s s1 ∧ exec (.stz m) s = takeTrap c s1 ∧ exec (.sta m) s = takeTrap c s1 ∧
      exec (.stt m) s = takeTrap c s1 ∧ exec (.stx m) s = takeTrap c s1 ∧ exec (.std m) s = takeTrap c s1 ∧
      exec (.stf m) s = takeTrap c s1) ∧
    (effAddr m s = .ok ea s1 → locate .read .untagged ea s1 = .trap c s2 →
      OnlyMarks s s1 ∧ exec (.lda m) s = takeTrap c s1 ∧ exec (.ldt m) s = takeTrap c s1 ∧
      exec (.ldx m) s = takeTrap c s1 ∧ exec (.ldd m) s = takeTrap c s1 ∧ exec (.ldf m) s = takeTrap c s1 ∧
      exec (.add m) s = takeTrap c s1 ∧ exec (.sub m) s = takeTrap c s1 ∧ exec (.and m) s = takeTrap c s1 ∧
      exec (.ora m) s = takeTrap c s1 ∧ exec (.mpy m) s = takeTrap c s1 ∧ exec (.min m) s = takeTrap c s1 ∧
      exec (.fad m) s = takeTrap c s1 ∧ exec (.fsb m) s = takeTrap c s1 ∧ exec (.fmu m) s = takeTrap c s1 ∧
      exec (.fdv m) s = takeTrap c s1)) ∧
  (∀ (m : AddrMode) (s s1 s2 s3 s4 : State) (ea u v : Word) (c : IntCode),
    effAddr m s = .ok ea s1 → memRead ea s1 = .ok u s2 →
    (memWrite ea (u + 1) s2 = .trap c s3 → OnlyMarks s s3 ∧ exec (.min m) s = takeTrap c s3) ∧
    (memRead (ea + 1) s2 = .trap c s3 → OnlyMarks s s3 ∧
      exec (.ldd m) s = takeTrap c s3 ∧ exec (.ldf m) s = takeTrap c s3 ∧ exec (.fad m) s = takeTrap c s3 ∧
      exec (.fsb m) s = takeTrap c s3 ∧ exec (.fmu m) s = takeTrap c s3 ∧ exec (.fdv m) s = takeTrap c s3) ∧
    (s.params.fpFormat = .fp48 → memRead (ea + 1) s2 = .ok v s3 → memRead (ea + 2) s3 = .trap c s4 →
      OnlyMarks s s4 ∧ exec (.ldf m) s = takeTrap c s4 ∧ exec (.fad m) s = takeTrap c s4 ∧
      exec (.fsb m) s = takeTrap c s4 ∧ exec (.fmu m) s = takeTrap c s4 ∧ exec (.fdv m) s = takeTrap c s4)) ∧
  (∀ (m : AddrMode) (s s1 s2 s3 s4 : State) (ea : Word) (c : IntCode), effAddr m s = .ok ea s1 →
    (memWrite ea s.cur.a s1 = .ok () s2 → memWrite (ea + 1) s.cur.d s2 = .trap c s3 →
      s3 = s2 ∧ s2.regs = s.regs ∧ exec (.std m) s = takeTrap c s2 ∧
      (s.params.fpFormat = .fp32 → exec (.stf m) s = takeTrap c s2)) ∧
    (s.params.fpFormat = .fp48 → memWrite ea s.cur.t s1 = .ok () s2 →
      (memWrite (ea + 1) s.cur.a s2 = .trap c s3 → s3 = s2 ∧ s2.regs = s.regs ∧ exec (.stf m) s = takeTrap c s2) ∧
      (memWrite (ea + 1) s.cur.a s2 = .ok () s3 → memWrite (ea + 2) s.cur.d s3 = .trap c s4 →
        s4 = s3 ∧ s3.regs = s.regs ∧ exec (.stf m) s = takeTrap c s3)))

/-- STD and STF complete where their words can be written: A then D, or with the 48-bit format T, A, D, at ascending
addresses. With memory management off those words read back and every other byte is as before. LDF completes where its
words can be read: T, A and D with the 48-bit format, A and D with the 32-bit one, nothing being written before all are
read. (That STF and LDF move two words with the 32-bit format is the spec's decision D41.) The 32-bit form is the
spec's decision D41 (log 54). -/
def Obligations.MultiWordTransfers : Prop :=
  (∀ (m : AddrMode) (s s1 s2 s3 s4 : State) (ea : Word), effAddr m s = .ok ea s1 →
    (memWrite ea s.cur.a s1 = .ok () s2 → memWrite (ea + 1) s.cur.d s2 = .ok () s3 →
      exec (.std m) s = .next (s3.setCur { s.cur with p := s.cur.p + 1 }) ∧
      (s.params.fpFormat = .fp32 → exec (.stf m) s = .next (s3.setCur { s.cur with p := s.cur.p + 1 }))) ∧
    (s.params.fpFormat = .fp48 → memWrite ea s.cur.t s1 = .ok () s2 → memWrite (ea + 1) s.cur.a s2 = .ok () s3 →
      memWrite (ea + 2) s.cur.d s3 = .ok () s4 →
      exec (.stf m) s = .next (s4.setCur { s.cur with p := s.cur.p + 1 }))) ∧
  (∀ (m : AddrMode) (s : State) (ea : Word), s.Flat → effAddr m s = .ok ea s →
    (∃ t, exec (.std m) s = .next t ∧ t.cur = { s.cur with p := s.cur.p + 1 } ∧ t.flatWord ea = s.cur.a ∧
      t.flatWord (ea + 1) = s.cur.d ∧ SameOtherLevels s t ∧ SameSystem s t ∧
      SameBytesBut (cellsOf (flatPlace ea) ++ cellsOf (flatPlace (ea + 1))) s t) ∧
    (s.params.fpFormat = .fp48 →
      ∃ t, exec (.stf m) s = .next t ∧ t.cur = { s.cur with p := s.cur.p + 1 } ∧ t.flatWord ea = s.cur.t ∧
        t.flatWord (ea + 1) = s.cur.a ∧ t.flatWord (ea + 2) = s.cur.d ∧ SameOtherLevels s t ∧ SameSystem s t ∧
        SameBytesBut (cellsOf (flatPlace ea) ++ cellsOf (flatPlace (ea + 1)) ++ cellsOf (flatPlace (ea + 2))) s t)) ∧
  (∀ (m : AddrMode) (s s1 s2 s3 s4 : State) (ea u v w : Word),
      effAddr m s = .ok ea s1 → memRead ea s1 = .ok u s2 → memRead (ea + 1) s2 = .ok v s3 →
      (s.params.fpFormat = .fp32 → OnlyMarks s s3 ∧
        exec (.ldf m) s = .next (s3.setCur { s.cur with a := u, d := v, p := s.cur.p + 1 })) ∧
      (s.params.fpFormat = .fp48 → memRead (ea + 2) s3 = .ok w s4 →
        OnlyMarks s s4 ∧ exec (.ldf m) s = .next (s4.setCur { s.cur with t := u, a := v, d := w, p := s.cur.p + 1 })))

/-- LDA, LDT, LDX, AND, ORA complete wherever their operand can be read: the one register takes the word, or its
bitwise combination with A; P goes on, no flag is written, nothing else changes but marks. LDD completes where its two
words can be read: A and D from EA and EA + 1. If either read faults, LDD is that fault, and no register is written. -/
def Obligations.LoadsComplete : Prop :=
  (∀ (m : AddrMode) (s s1 : State) (v : Word), operandWord m s = .ok v s1 →
      OnlyMarks s s1 ∧
      exec (.lda m) s = .next (s1.setCur { s.cur with a := v, p := s.cur.p + 1 }) ∧
      exec (.ldt m) s = .next (s1.setCur { s.cur with t := v, p := s.cur.p + 1 }) ∧
      exec (.ldx m) s = .next (s1.setCur { s.cur with x := v, p := s.cur.p + 1 }) ∧
      exec (.and m) s = .next (s1.setCur { s.cur with a := s.cur.a &&& v, p := s.cur.p + 1 }) ∧
      exec (.ora m) s = .next (s1.setCur { s.cur with a := s.cur.a ||| v, p := s.cur.p + 1 })) ∧
  (∀ (m : AddrMode) (s s1 s2 s3 : State) (ea u v : Word),
      effAddr m s = .ok ea s1 → memRead ea s1 = .ok u s2 → memRead (ea + 1) s2 = .ok v s3 →
      OnlyMarks s s3 ∧
      exec (.ldd m) s = .next (s3.setCur { s.cur with a := u, d := v, p := s.cur.p + 1 })) ∧
  (∀ (m : AddrMode) (s s1 s2 s3 : State) (ea u : Word) (c : IntCode), effAddr m s = .ok ea s1 →
      (memRead ea s1 = .trap c s2 → exec (.ldd m) s = takeTrap c s2 ∧ s2.regs = s.regs) ∧
      (memRead ea s1 = .ok u s2 → memRead (ea + 1) s2 = .trap c s3 →
        exec (.ldd m) s = takeTrap c s3 ∧ s3.regs = s.regs))

/-- ADD and SUB complete wherever their operand can be read: the sum or difference modulo 2^16 in A, and C, O, Q by the
addition A + operand or A + ~operand + 1: for SUB, C says no borrow. MPY completes wherever its operand can be read:
the low 16 bits of the signed product in A; if the product's absolute value is above 32767, O and Q become 1, else Q
becomes 0 and O stays; no other flag changes. (The low 16 bits on overflow, and Q reset without it, are the spec's
choice, log 20.) C without a carry is the spec's decision D9, the roles of O and Q D10 (log 19), MPY D14 (log 20). -/
def Obligations.AddSubMultiply : Prop :=
  (∀ (m : AddrMode) (s s1 : State) (v : Word), operandWord m s = .ok v s1 →
      OnlyMarks s s1 ∧
      (∃ f, exec (.add m) s = .next (s1.setCur { s.cur with a := s.cur.a + v, sts := f, p := s.cur.p + 1 }) ∧
        AddFlags s.cur.a v false s.cur.sts f) ∧
      (∃ f, exec (.sub m) s = .next (s1.setCur { s.cur with a := s.cur.a - v, sts := f, p := s.cur.p + 1 }) ∧
        AddFlags s.cur.a (~~~v) true s.cur.sts f ∧ f.getLsbD 6 = decide (v.toNat ≤ s.cur.a.toNat))) ∧
  (∀ (m : AddrMode) (s s1 : State) (v : Word), operandWord m s = .ok v s1 →
      ∃ f, exec (.mpy m) s = .next (s1.setCur
          { s.cur with a := BitVec.ofInt 16 (s.cur.a.toInt * v.toInt), sts := f, p := s.cur.p + 1 }) ∧
        OnlyMarks s s1 ∧
        f.getLsbD 4 = decide (32767 < |s.cur.a.toInt * v.toInt|) ∧
        f.getLsbD 5 = (f.getLsbD 4 || s.cur.o) ∧
        (∀ n, n ≠ 4 → n ≠ 5 → f.getLsbD n = s.cur.sts.getLsbD n))

/-! ## Sequencing -/

/-- JMP and JPL complete wherever the address can be formed: P takes EA, and for JPL L takes the address of the next
instruction, EA being formed first. JAN, JAZ, JAF, JNC, JXZ, JXN complete in every state: to P plus the signed
displacement if the condition holds, else to P + 1; JNC increments X first, and no flag is written. -/
def Obligations.JumpsComplete : Prop :=
  (∀ (m : AddrMode) (s s1 : State) (ea : Word), effAddr m s = .ok ea s1 →
      OnlyMarks s s1 ∧
      exec (.jmp m) s = .next (s1.setCur { s.cur with p := ea }) ∧
      exec (.jpl m) s = .next (s1.setCur { s.cur with l := s.cur.p + 1, p := ea })) ∧
  (∀ (d : BitVec 8) (s : State),
      let go (r : RegSet) (c : Prop) [Decidable c] : State :=
        s.setCur { r with p := if c then s.cur.p + d.signExtend 16 else s.cur.p + 1 }
      let inc : RegSet := { s.cur with x := s.cur.x + 1 }
      exec (.jan d) s = .next (go s.cur (s.cur.a.toInt < 0)) ∧
      exec (.jaz d) s = .next (go s.cur (s.cur.a = 0)) ∧
      exec (.jaf d) s = .next (go s.cur (s.cur.a ≠ 0)) ∧
      exec (.jnc d) s = .next (go inc (inc.x.toInt < 0)) ∧
      exec (.jxz d) s = .next (go s.cur (s.cur.x = 0)) ∧
      exec (.jxn d) s = .next (go s.cur (s.cur.x.toInt < 0)))

/-- JAP and JPC complete in every state: they jump when A (X, incremented first) is positive; at 0 they follow the
parameter JAP_ZERO_JUMPS (D13). SKP completes in every state: it skips exactly when (dr) rel (sr) holds, code 0
standing for the value 0 and P for the address of the instruction; GRE and LST compare signed numbers, MGRE and MLST
unsigned ones, GEQ and LSS the sign of the 16-bit difference. No register and no flag is written (D11). JAP_ZERO_JUMPS
is an open parameter (D13, log 43); code 0 and the unwritten flags are the decision D11 (log 44). -/
def Obligations.SkipsAndPositiveJumps : Prop :=
  (∀ (d : BitVec 8) (s : State),
      let go (r : RegSet) (c : Prop) [Decidable c] : State :=
        s.setCur { r with p := if c then s.cur.p + d.signExtend 16 else s.cur.p + 1 }
      let inc : RegSet := { s.cur with x := s.cur.x + 1 }
      exec (.jap d) s = .next (go s.cur (0 < s.cur.a.toInt ∨ (s.cur.a = 0 ∧ s.params.japZeroJumps = true))) ∧
      exec (.jpc d) s = .next (go inc (0 < inc.x.toInt ∨ (inc.x = 0 ∧ s.params.japZeroJumps = true)))) ∧
  (∀ (c : SkipCond) (sr dr : RegCode) (s : State),
    let d := s.cur.get dr
    let v := s.cur.get sr
    let holds : Prop := match c with
      | .eql => d = v
      | .geq => 0 ≤ (d - v).toInt
      | .gre => v.toInt ≤ d.toInt
      | .mgre => v.toNat ≤ d.toNat
      | .ueq => d ≠ v
      | .lss => (d - v).toInt < 0
      | .lst => d.toInt < v.toInt
      | .mlst => d.toNat < v.toNat
    (holds → exec (.skp c sr dr) s = .next (s.setCur { s.cur with p := s.cur.p + 2 })) ∧
    (¬holds → exec (.skp c sr dr) s = .next (s.setCur { s.cur with p := s.cur.p + 1 })))

/-- EXR runs the word in the register as if it had been fetched at P; an EXR in the register only sets Z and goes on
(with the error flag's interrupt); an unassigned word, or source code 0 or 2, is an illegal instruction. Bits 2-0 of
the EXR have no effect. A register that holds SAA n runs it: A takes n and P goes on from the EXR. Rests on the spec's
decision D32 (log 49); bits 2-0 are log 18. -/
def Obligations.ExecuteRegister : Prop :=
  ∀ (sr : RegCode) (ign : BitVec 3) (s : State),
    ((sr = .zero ∨ sr = .p) → exec (.exr sr ign) s = takeTrap .illegalInstruction s) ∧
    (sr ≠ .zero → sr ≠ .p →
      (decodeWord (s.cur.get sr) = none → exec (.exr sr ign) s = takeTrap .illegalInstruction s) ∧
      (∀ r g, decodeWord (s.cur.get sr) = some (.exr r g) → exec (.exr sr ign) s = .next (s.raiseErrorFlag
        (s.setCur { s.cur with sts := s.cur.sts ||| 0o10, p := s.cur.p + 1 }))) ∧
      (∀ i, decodeWord (s.cur.get sr) = some i → (∀ r g, i ≠ .exr r g) → exec (.exr sr ign) s = exec i s) ∧
      (∀ n : BitVec 8, s.cur.get sr = 0o361#8 ++ n → exec (.exr sr ign) s = .next
        (s.setCur { s.cur with a := n.signExtend 16, p := s.cur.p + 1 })))

/-! ## Register operations -/

/-- SAB, SAA, SAT, SAX complete in every state: the register takes the sign-extended argument, no flag changes. AAB,
AAA, AAT, AAX add it modulo 2^16 and write C, O, Q by that addition. The flags are the spec's decision D12 (log 44), C
without a carry D9 (log 19). -/
def Obligations.ArgumentInstructions : Prop :=
  ∀ (n : BitVec 8) (s : State),
    let e := n.signExtend 16
    exec (.sab n) s = .next (s.setCur { s.cur with b := e, p := s.cur.p + 1 }) ∧
    exec (.saa n) s = .next (s.setCur { s.cur with a := e, p := s.cur.p + 1 }) ∧
    exec (.sat n) s = .next (s.setCur { s.cur with t := e, p := s.cur.p + 1 }) ∧
    exec (.sax n) s = .next (s.setCur { s.cur with x := e, p := s.cur.p + 1 }) ∧
    (∃ f, exec (.aab n) s = .next (s.setCur { s.cur with b := s.cur.b + e, sts := f, p := s.cur.p + 1 }) ∧
      AddFlags s.cur.b e false s.cur.sts f) ∧
    (∃ f, exec (.aaa n) s = .next (s.setCur { s.cur with a := s.cur.a + e, sts := f, p := s.cur.p + 1 }) ∧
      AddFlags s.cur.a e false s.cur.sts f) ∧
    (∃ f, exec (.aat n) s = .next (s.setCur { s.cur with t := s.cur.t + e, sts := f, p := s.cur.p + 1 }) ∧
      AddFlags s.cur.t e false s.cur.sts f) ∧
    (∃ f, exec (.aax n) s = .next (s.setCur { s.cur with x := s.cur.x + e, sts := f, p := s.cur.p + 1 }) ∧
      AddFlags s.cur.x e false s.cur.sts f)

/-- RADD completes in every state. With ADC and AD1 both it is a no-operation. Else dr takes d + v + carry-in modulo
2^16, with C, O, Q by that addition, d being (dr) or with CLD 0, v being (sr) or with CM1 its complement, the carry-in
1 with AD1 and C with ADC. A destination code 0 takes nothing; a destination P is a jump. The named forms of RADD
complete in every state: COPY, RCLR, RINC, RDCR, RSUB with the flags of their additions, and EXIT, which returns to the
address in L. Code 0 and ADC with AD1 are the spec's decisions D11 and D16 (log 44), C without a carry D9 (log 19), P
as a destination D6 (log 40). -/
def Obligations.RegisterAdd : Prop :=
  (∀ (adc ad1 cm1 cld : Bool) (sr dr : RegCode) (s : State),
      let d : Word := if cld = true then 0 else s.cur.get dr
      let v : Word := if cm1 = true then ~~~(s.cur.get sr) else s.cur.get sr
      let cin : Bool := ad1 || (adc && s.cur.c)
      let r : Word := d + v + (if cin = true then 1 else 0)
      (adc = true → ad1 = true →
        exec (.radd adc ad1 cm1 cld sr dr) s = .next (s.setCur { s.cur with p := s.cur.p + 1 })) ∧
      (¬(adc = true ∧ ad1 = true) →
        ∃ f, exec (.radd adc ad1 cm1 cld sr dr) s = .next (s.setCur { s.cur.set dr r with
            sts := f, p := if dr = .p then r else s.cur.p + 1 }) ∧
          AddFlags d v cin s.cur.sts f)) ∧
  (∀ (sr dr : RegCode) (s : State),
      let d : Word := s.cur.get dr
      let v : Word := s.cur.get sr
      let done (r : Word) (f : Byte) : State :=
        s.setCur { s.cur.set dr r with sts := f, p := if dr = .p then r else s.cur.p + 1 }
      (∃ f, exec (.copy sr dr) s = .next (done v f) ∧ AddFlags 0 v false s.cur.sts f ∧
        f.getLsbD 6 = false ∧ f.getLsbD 4 = false) ∧
      (∃ f, exec (.rclr dr) s = .next (done 0 f) ∧ AddFlags 0 0 false s.cur.sts f) ∧
      (∃ f, exec (.rinc dr) s = .next (done (d + 1) f) ∧ AddFlags d 0 true s.cur.sts f) ∧
      (∃ f, exec (.rdcr dr) s = .next (done (d - 1) f) ∧ AddFlags d 0o177777 false s.cur.sts f) ∧
      (∃ f, exec (.rsub sr dr) s = .next (done (d - v) f) ∧ AddFlags d (~~~v) true s.cur.sts f) ∧
      (∃ f, exec .exit s = .next (s.setCur { s.cur with p := s.cur.l, sts := f }) ∧
        AddFlags 0 s.cur.l false s.cur.sts f))

/-- RAND, REXO, RORA and SWAP complete in every state, with CM1 and CLD as for RADD and no flag written. SWAP writes
the destination operand to sr, then the source operand to dr; a write to P is a jump, a write to code 0 is discarded.
The unwritten flags and code 0 are the spec's decisions D11 and D12 (log 44). -/
def Obligations.RegisterLogic : Prop :=
  ∀ (cm1 cld : Bool) (sr dr : RegCode) (s : State),
    let d : Word := if cld = true then 0 else s.cur.get dr
    let v : Word := if cm1 = true then ~~~(s.cur.get sr) else s.cur.get sr
    let done (r : Word) : State :=
      s.setCur { s.cur.set dr r with p := if dr = .p then r else s.cur.p + 1 }
    exec (.rand cm1 cld sr dr) s = .next (done (d &&& v)) ∧
    exec (.rexo cm1 cld sr dr) s = .next (done (d ^^^ v)) ∧
    exec (.rora cm1 cld sr dr) s = .next (done (d ||| v)) ∧
    exec (.swap cm1 cld sr dr) s = .next (s.setCur { (s.cur.set sr d).set dr v with
      p := if dr = .p then v else if sr = .p then d else s.cur.p + 1 })

/-- RMPY completes in every state: A and D hold the exact signed 32-bit product, A high; C, O, Q are open, whatever the
open values, and nothing else changes. MIX3 completes in every state: X takes (A - 1) * 3 modulo 2^16; A and the flags
stay. The open flags are the spec's decision D12 (log 21), the wrap of MIX3 D7 (log 40). The statement holds for every
value of the open flags. -/
def Obligations.RegisterMultiply : Prop :=
  (∀ (sr dr : RegCode) (s : State),
      ∃ (a d : Word) (f : Byte),
        exec (.rmpy sr dr) s = .next ((s.drawn 1).setCur
          { s.cur with a := a, d := d, sts := f, p := s.cur.p + 1 }) ∧
        (a ++ d).toInt = (s.cur.get sr).toInt * (s.cur.get dr).toInt ∧
        ∀ n, n ≠ 4 → n ≠ 5 → n ≠ 6 → f.getLsbD n = s.cur.sts.getLsbD n) ∧
  (∀ s : State, exec .mix3 s = .next (s.setCur
      { s.cur with x := BitVec.ofInt 16 (((s.cur.a.toNat : Int) - 1) * 3), p := s.cur.p + 1 }))

/-- RDIV completes in every state. With a divisor other than 0 and a quotient of 16 bits, A and D are the quotient
rounded toward zero and the remainder, which has the dividend's sign. Otherwise Z is set, with its interrupt, and A and
D are open. C, O, Q are open. The rounding and the overflow case are the spec's decision D15 (log 21). The statement
holds for every open value. -/
def Obligations.RegisterDivide : Prop :=
  ∀ (sr : RegCode) (ign : BitVec 3) (s : State),
    let n : Int := (s.cur.a ++ s.cur.d).toInt
    let v : Int := (s.cur.get sr).toInt
    ∃ (a d : Word) (f : Byte),
      exec (.rdiv sr ign) s = .next (s.raiseErrorFlag ((s.drawn 3).setCur
        { s.cur with a := a, d := d, sts := f, p := s.cur.p + 1 })) ∧
      (∀ k, k ≠ 3 → k ≠ 4 → k ≠ 5 → k ≠ 6 → f.getLsbD k = s.cur.sts.getLsbD k) ∧
      (∀ q r : Int, n = q * v + r → |r| < |v| → 0 ≤ r * n → -32768 ≤ q → q ≤ 32767 →
        a.toInt = q ∧ d.toInt = r ∧ f.getLsbD 3 = s.cur.z) ∧
      ((v = 0 ∨ ∀ q r : Int, n = q * v + r → |r| < |v| → 0 ≤ r * n → q < -32768 ∨ 32767 < q) →
        f.getLsbD 3 = true)

/-! ## Bits and shifts -/

/-- The bit instructions complete in every state on every register, and on bits 0 to 7 of STS: BSET, BSTC, BSTA write
the addressed bit alone (and BSTC, BSTA then K), a write to a bit of P being a jump; BLDC to BORA write K alone; BSKP
writes nothing and skips. Setting Z is followed by its interrupt. BSKP BCM compares with the complement of K (log 25).
BSKP BCM is the spec's decision D46 (log 25), P as a destination D6 (log 40), the error flag's interrupt D20 (log 45).
-/
def Obligations.BitInstructions : Prop :=
  ∀ (bn : BitVec 4) (dr : RegCode) (s : State), ¬(dr = .zero ∧ 8 ≤ bn.toNat) →
    let w : Word := if dr = .zero then s.cur.sts.setWidth 16 else s.cur.get dr
    let bit : Bool := w.getLsbD bn.toNat
    let k : Bool := s.cur.k
    let put (v : Bool) : RegSet :=
      if dr = .zero then
        { s.cur with sts := if v = true then s.cur.sts ||| BitVec.twoPow 8 bn.toNat
            else s.cur.sts &&& ~~~BitVec.twoPow 8 bn.toNat }
      else s.cur.set dr (if v = true then w ||| BitVec.twoPow 16 bn.toNat else w &&& ~~~BitVec.twoPow 16 bn.toNat)
    let go (r : RegSet) : State := s.raiseErrorFlag (s.setCur (if dr = .p then r else { r with p := s.cur.p + 1 }))
    let load (v : Bool) : State := s.setCur
      { s.cur with sts := if v = true then s.cur.sts ||| 4 else s.cur.sts &&& ~~~4, p := s.cur.p + 1 }
    let skip (c : Bool) : State := s.setCur { s.cur with p := if c = true then s.cur.p + 2 else s.cur.p + 1 }
    (exec (.bsetZro bn dr) s = .next (go (put false)) ∧
      exec (.bsetOne bn dr) s = .next (go (put true)) ∧
      exec (.bsetBcm bn dr) s = .next (go (put (!bit))) ∧
      exec (.bsetBac bn dr) s = .next (go (put k)) ∧
      exec (.bstc bn dr) s = .next (go { put (!k) with sts := (put (!k)).sts ||| 4 }) ∧
      exec (.bsta bn dr) s = .next (go { put k with sts := (put k).sts &&& ~~~4 })) ∧
    (exec (.bldc bn dr) s = .next (load (!bit)) ∧ exec (.blda bn dr) s = .next (load bit) ∧
      exec (.banc bn dr) s = .next (load (!bit && k)) ∧ exec (.band bn dr) s = .next (load (bit && k)) ∧
      exec (.borc bn dr) s = .next (load (!bit || k)) ∧ exec (.bora bn dr) s = .next (load (bit || k))) ∧
    (exec (.bskpZro bn dr) s = .next (skip (!bit)) ∧ exec (.bskpOne bn dr) s = .next (skip bit) ∧
      exec (.bskpBcm bn dr) s = .next (skip (bit != k)) ∧ exec (.bskpBac bn dr) s = .next (skip (bit == k)))

/-- The step-by-step shift in closed form, at every width: 0 steps change nothing; arithmetic and zero-end shifts are
the machine shifts, M being the last bit shifted out; a rotation is a rotation, M being the bit that went round last; a
link shift is a rotation of M and the register together. Counters from 32 up are right shifts by 64 minus the counter.
SHT, SHD, SHA and SAD complete in every state: T, D, A, or A and D connected, take the shifted value and M the last bit
shifted out, by `shiftWordBy`; P goes on and no other register or flag changes. The algorithm is the spec's decision
D48 (log 22), the type codes are log 14. -/
def Obligations.ShiftsComplete : Prop :=
  (∀ (w : Nat) (cnt : BitVec 6) (r : BitVec w) (m : Bool), 0 < w →
      let c := cnt.toNat
      let n := 64 - cnt.toNat
      let out (ty : ShiftType) := shiftWordBy ty cnt r m
      (c = 0 → ∀ ty, out ty = (r, m)) ∧
      (0 < c → c < 32 →
        ((out .arith).1 = r <<< c ∧ (out .arith).2 = (decide (c ≤ w) && r.getLsbD (w - c))) ∧
        out .zin = out .arith ∧
        ((out .rot).1 = r.rotateLeft c ∧ (out .rot).2 = (r.rotateLeft c).getLsbD 0) ∧
        BitVec.ofBool (out .lin).2 ++ (out .lin).1 = (BitVec.ofBool m ++ r).rotateLeft c) ∧
      (32 ≤ c →
        ((out .arith).1 = r.sshiftRight n ∧ (out .arith).2 = if n ≤ w then r.getLsbD (n - 1) else r.msb) ∧
        ((out .zin).1 = r >>> n ∧ (out .zin).2 = r.getLsbD (n - 1)) ∧
        ((out .rot).1 = r.rotateRight n ∧ (out .rot).2 = (r.rotateRight n).msb) ∧
        BitVec.ofBool (out .lin).2 ++ (out .lin).1 = (BitVec.ofBool m ++ r).rotateRight n)) ∧
  (∀ (ty : ShiftType) (cnt : BitVec 6) (s : State),
      let m (v : Bool) : Byte := if v = true then s.cur.sts ||| 128 else s.cur.sts &&& 127
      let t := shiftWordBy ty cnt s.cur.t s.cur.m
      let d := shiftWordBy ty cnt s.cur.d s.cur.m
      let a := shiftWordBy ty cnt s.cur.a s.cur.m
      let ad := shiftWordBy ty cnt (s.cur.a ++ s.cur.d) s.cur.m
      exec (.sht ty cnt) s = .next (s.setCur { s.cur with t := t.1, sts := m t.2, p := s.cur.p + 1 }) ∧
      exec (.shd ty cnt) s = .next (s.setCur { s.cur with d := d.1, sts := m d.2, p := s.cur.p + 1 }) ∧
      exec (.sha ty cnt) s = .next (s.setCur { s.cur with a := a.1, sts := m a.2, p := s.cur.p + 1 }) ∧
      exec (.sad ty cnt) s = .next (s.setCur { s.cur with
        a := ad.1.extractLsb' 16 16, d := ad.1.extractLsb' 0 16, sts := m ad.2, p := s.cur.p + 1 }))

/-! ## Bytes and blocks -/

/-- LBYT and SBYT complete where the word at T + X/2 (X unsigned) can be reached: an even X names the left byte, bits
15-8, an odd one the right byte. LBYT zero-extends it into A; SBYT writes A[7:0] there and keeps the other byte. The
byte order and the unsigned halving are the spec's decisions D3 and D28 (log 48). -/
def Obligations.ByteLoadStore : Prop :=
  (∀ (s s1 : State) (w : Word), memRead (s.cur.t + s.cur.x >>> 1) s = .ok w s1 →
    OnlyMarks s s1 ∧
    exec .lbyt s = .next (s1.setCur { s.cur with
      a := BitVec.ofNat 16 (if s.cur.x.getLsbD 0 = true then w.toNat % 256 else w.toNat / 256),
      p := s.cur.p + 1 }) ∧
    ∀ (p : TransTarget) (s2 : State), locate .write .untagged (s.cur.t + s.cur.x >>> 1) s1 = .ok p s2 →
      let done := (s2.writePlace (storeByte w (s.cur.x.getLsbD 0) (rightByte s.cur.a)) p).setCur
        { s.cur with p := s.cur.p + 1 }
      OnlyMarks s s2 ∧ exec .sbyt s = .next done ∧ SameBytesBut (cellsOf p) s2 done) ∧
  (∀ (w : Word) (h : Bool) (v : Byte),
    (loadByte w false).toNat = w.toNat / 256 ∧ (loadByte w true).toNat = w.toNat % 256 ∧
    loadByte (storeByte w h v) h = v ∧ loadByte (storeByte w h v) (!h) = loadByte w (!h)) ∧
  (∀ s : State, s.Flat →
    let c := flatCell ⟨s.cur.t + s.cur.x >>> 1, s.cur.x.getLsbD 0⟩
    ∃ t, exec .sbyt s = .next t ∧ t.byteOf c = s.cur.a.extractLsb' 0 8 ∧ SameBytesBut [c] s t)

/-- BFILL with memory management off: every byte of the destination field becomes A[7:0] and no other byte changes; X
and T[15] end after the field, T's length is 0 and its other bits are kept; P goes on and nothing else changes. In
every state, a fault on the first byte is the fault, with no register changed, and a first byte stored leaves what a
BFILL begun one byte further, its length one less, would find: so a fault later leaves X and T at the bytes done. Rests
on the spec's decision D40 (log 24). -/
def Obligations.ByteFill : Prop :=
  (∀ s : State, s.Flat → s.params.blockLenBits ≤ 15 →
    let n := s.cur.t.toNat % 2 ^ s.params.blockLenBits
    let e := BytePos.advance n (descrPos s.cur.x s.cur.t)
    ∃ t, exec .bfill s = .next t ∧
      (∀ c ∈ fieldCells n (descrPos s.cur.x s.cur.t), t.byteOf c = s.cur.a.extractLsb' 0 8) ∧
      SameBytesBut (fieldCells n (descrPos s.cur.x s.cur.t)) s t ∧
      t.cur = { s.cur with x := e.addr, t := t.cur.t, p := s.cur.p + 1 } ∧
      t.cur.t.msb = e.half ∧ t.cur.t.toNat % 2 ^ s.params.blockLenBits = 0 ∧
      (∀ k, s.params.blockLenBits ≤ k → k < 15 → t.cur.t.getLsbD k = s.cur.t.getLsbD k) ∧
      SameOtherLevels s t ∧ SameSystem s t) ∧
  (∀ (s u : State), s.params.blockLenBits ≤ 15 → s.cur.t.toNat % 2 ^ s.params.blockLenBits ≠ 0 →
    let first := writeByteAt (descrPos s.cur.x s.cur.t) (s.cur.a.extractLsb' 0 8) s
    let e := (descrPos s.cur.x s.cur.t).next
    (∀ c, first = .trap c u → exec .bfill s = takeTrap c u ∧ u.regs = s.regs) ∧
    (first = .ok () u → ∃ w : Word, exec .bfill s = exec .bfill (u.setCur { s.cur with x := e.addr, t := w }) ∧
      w.msb = e.half ∧
      w.toNat % 2 ^ s.params.blockLenBits = s.cur.t.toNat % 2 ^ s.params.blockLenBits - 1 ∧
      ∀ k, s.params.blockLenBits ≤ k → k < 15 → w.getLsbD k = s.cur.t.getLsbD k))

/-- MOVB and MOVBF with memory management off, over the smaller of the two lengths: MOVB's destination receives the
bytes the source held before; MOVBF's each byte as it stands when it is read, after the bytes before it were written.
No other byte changes; A, D[15] and X, T[15] end after their fields, D's length is 0 and T's the count. In every state:
a fault while MOVB reads is the fault, no register being changed; a fault after k bytes were stored (`f` being the
states between bytes) is the fault with A, D[15] and X, T[15] k bytes further and both lengths less by k, their other
bits kept. Rests on the spec's decision D40 (log 24, 26). -/
def Obligations.ByteMove : Prop :=
  (∀ s : State, s.Flat → s.params.blockLenBits ≤ 15 →
    let bits := s.params.blockLenBits
    let n := min (s.cur.d.toNat % 2 ^ bits) (s.cur.t.toNat % 2 ^ bits)
    let src := fieldCells n (descrPos s.cur.a s.cur.d)
    let dst := fieldCells n (descrPos s.cur.x s.cur.t)
    let eS := BytePos.advance n (descrPos s.cur.a s.cur.d)
    let eD := BytePos.advance n (descrPos s.cur.x s.cur.t)
    let ends (t : State) : Prop :=
      SameBytesBut dst s t ∧ SameOtherLevels s t ∧ SameSystem s t ∧
      t.cur = { s.cur with a := eS.addr, d := t.cur.d, x := eD.addr, t := t.cur.t, p := s.cur.p + 1 } ∧
      t.cur.d.msb = eS.half ∧ t.cur.d.toNat % 2 ^ bits = 0 ∧
      t.cur.t.msb = eD.half ∧ t.cur.t.toNat % 2 ^ bits = n ∧
      (∀ k, bits ≤ k → k < 15 → t.cur.d.getLsbD k = s.cur.d.getLsbD k ∧ t.cur.t.getLsbD k = s.cur.t.getLsbD k)
    (∃ t, exec .movb s = .next t ∧ ends t ∧ dst.map t.byteOf = src.map s.byteOf) ∧
    (∃ t, exec .movbf s = .next t ∧ ends t ∧
      ∀ k c d, src[k]? = some c → dst[k]? = some d →
        t.byteOf d = if c ∈ dst.take k then t.byteOf c else s.byteOf c)) ∧
  (∀ (s s1 u : State) (c : IntCode) (f : Nat → State) (k : Nat), s.params.blockLenBits ≤ 15 →
    let bits := s.params.blockLenBits
    let n := min (s.cur.d.toNat % 2 ^ bits) (s.cur.t.toNat % 2 ^ bits)
    let src (j : Nat) := BytePos.advance j (descrPos s.cur.a s.cur.d)
    let dst (j : Nat) := BytePos.advance j (descrPos s.cur.x s.cur.t)
    let leftAt (i : Instr) : Prop := ∃ d t : Word,
      exec i s = takeTrap c (u.setCur { s.cur with a := (src k).addr, d := d, x := (dst k).addr, t := t }) ∧
      d.msb = (src k).half ∧ d.toNat % 2 ^ bits = s.cur.d.toNat % 2 ^ bits - k ∧
      t.msb = (dst k).half ∧ t.toNat % 2 ^ bits = s.cur.t.toNat % 2 ^ bits - k ∧
      ∀ j, bits ≤ j → j < 15 → d.getLsbD j = s.cur.d.getLsbD j ∧ t.getLsbD j = s.cur.t.getLsbD j
    (readBytes n (src 0) s = .trap c u → exec .movb s = takeTrap c u ∧ u.regs = s.regs) ∧
    (∀ bs : List Byte, readBytes n (src 0) s = .ok bs s1 → f 0 = s1 →
      (∀ j b, j < k → bs[j]? = some b → writeByteAt (dst j) b (f j) = .ok () (f (j + 1))) →
      ∀ b, bs[k]? = some b → writeByteAt (dst k) b (f k) = .trap c u → leftAt .movb) ∧
    (f 0 = s → k < n →
      (∀ j, j < k → ∃ b v, readByte (src j) (f j) = .ok b v ∧ writeByteAt (dst j) b v = .ok () (f (j + 1))) →
      (readByte (src k) (f k) = .trap c u → leftAt .movbf) ∧
      (∀ b v, readByte (src k) (f k) = .ok b v → writeByteAt (dst k) b v = .trap c u → leftAt .movbf)))

/-- MOVEW moves one word a step and stays on the instruction until L is 0. With L = 0 or L above 2048 nothing moves. A
word moves where it can be read and written: by D and T through the normal or the alternative table, by bank A and D,
by bank X and T; D and T go on, A and X only when the address of a physical end overflows, L counts down. Rests on the
spec's decision D40 (log 52). -/
def Obligations.WordMove : Prop :=
  ∀ (s s1 s2 : State) (v : Word),
    let r := s.cur
    let stay : State := s.setCur { r with p := r.p + 1 }
    let moved (src dst : Bool) : State := s2.setCur { r with
      d := r.d + 1, a := if src = true ∧ r.d = 0o177777 then r.a + 1 else r.a,
      t := r.t + 1, x := if dst = true ∧ r.t = 0o177777 then r.x + 1 else r.x,
      l := r.l - 1, p := if r.l = 1 then r.p + 1 else r.p }
    let go : Prop := r.l ≠ 0 ∧ r.l.toNat ≤ 2048
    (¬go → exec .movew0 s = .next stay ∧ exec .movew1 s = .next stay ∧ exec .movew3 s = .next stay ∧
      exec .movew4 s = .next stay) ∧
    (¬go → s.entitled = true → exec .movew2 s = .next stay ∧ exec .movew5 s = .next stay ∧
      exec .movew6 s = .next stay ∧ exec .movew7 s = .next stay ∧ exec .movew10 s = .next stay) ∧
    (go → memReadVia .viaPt r.d s = .ok v s1 →
      (memWriteVia .viaPt r.t v s1 = .ok () s2 → exec .movew0 s = .next (moved false false)) ∧
      (memWriteVia .viaApt r.t v s1 = .ok () s2 → exec .movew1 s = .next (moved false false)) ∧
      (s.entitled = true → physWrite r.x r.t v s1 = .ok () s2 → exec .movew2 s = .next (moved false true))) ∧
    (go → memReadVia .viaApt r.d s = .ok v s1 →
      (memWriteVia .viaPt r.t v s1 = .ok () s2 → exec .movew3 s = .next (moved false false)) ∧
      (memWriteVia .viaApt r.t v s1 = .ok () s2 → exec .movew4 s = .next (moved false false)) ∧
      (s.entitled = true → physWrite r.x r.t v s1 = .ok () s2 → exec .movew5 s = .next (moved false true))) ∧
    (go → s.entitled = true → physRead r.a r.d s = .ok v s1 →
      (memWriteVia .viaPt r.t v s1 = .ok () s2 → exec .movew6 s = .next (moved true false)) ∧
      (memWriteVia .viaApt r.t v s1 = .ok () s2 → exec .movew7 s = .next (moved true false)) ∧
      (physWrite r.x r.t v s1 = .ok () s2 → exec .movew10 s = .next (moved true true))) ∧
    (s.poni = false → exec .movew0 s = exec .movew1 s ∧ exec .movew1 s = exec .movew3 s ∧
      exec .movew3 s = exec .movew4 s ∧ exec .movew2 s = exec .movew5 s ∧ exec .movew6 s = exec .movew7 s)

/-! ## Decimal -/

/-- ADDD, SUBD and COMD with memory management off and two legal operands. A sum or difference of less than 10^(n1-1)
is stored in op1's field, where it reads back (unsigned if D[13] is set), the error return is skipped and no register
changes; else overflow, code 3. COMD writes 0, 1 or -1 into A and no memory. The decimal rules are the spec's best
reading, decision D31 and R441 (log 27); that bits 12-11 of D and T are not looked at is log 55. -/
def Obligations.DecimalSum : Prop :=
  ∀ (s : State) (v1 v2 : Decimal), s.Flat → s.bcdAt s.cur.op1 = .ok v1 → s.bcdAt s.cur.op2 = .ok v2 →
    let o := s.cur.op1
    let stores (i : Instr) (r : Int) : Prop :=
      (r.natAbs < 10 ^ (o.len - 1) → ∃ t d, exec i s = .next t ∧ DecimalOk o.cells s t ∧ t.bcdAt o = .ok d ∧
        d.value = if o.d2.getLsbD 13 = true then (r.natAbs : Int) else r) ∧
      (10 ^ (o.len - 1) ≤ r.natAbs → ∃ t, exec i s = .next t ∧ DecimalError 3 o.cells s t)
    stores .addd (v1.value + v2.value) ∧ stores .subd (v1.value - v2.value) ∧
    exec .comd s = .next (s.setCur { s.cur with
      a := if v1.value = v2.value then 0 else if v2.value < v1.value then 1 else 0o177777, p := s.cur.p + 2 })

/-- An illegal code: in op1, A and D[15] point to its byte, D[4:0] is 2 and the error return is taken, for all five
instructions that read a BCD op1; in op2, D[4:0] alone is 2. Memory is not touched. The decimal rules are the spec's
best reading, decision D31 and R441 (log 27, 55, 56). -/
def Obligations.DecimalIllegalCode : Prop :=
  ∀ (s : State), s.Flat →
    (∀ p : BytePos, s.bcdAt s.cur.op1 = .error p →
      let t := s.setCur { s.cur with
        a := p.addr, d := (if p.half = true then s.cur.d ||| 0o100000 else s.cur.d &&& 0o77777) &&& 0o177740 ||| 2,
        p := s.cur.p + 1 }
      exec .addd s = .next t ∧ exec .subd s = .next t ∧ exec .comd s = .next t ∧ exec .shde s = .next t ∧
      (s.cur.op2.asciiCode.toNat ≤ 4 → exec .upack s = .next t)) ∧
    (∀ (p : BytePos) (v : Decimal), s.bcdAt s.cur.op1 = .ok v → s.bcdAt s.cur.op2 = .error p →
      let t := s.setCur { s.cur with d := s.cur.d &&& 0o177740 ||| 2, p := s.cur.p + 1 }
      exec .addd s = .next t ∧ exec .subd s = .next t ∧ exec .comd s = .next t)

/-- SHDE with memory management off and a legal op1: its magnitude is divided by 10^k, rounded up when T[10] is set and
the last digit shifted out is 5 or more, or multiplied by 10^-k, k being op2's decimal point minus op1's; if it fits it
is stored in op2's field with op1's sign nibble (unsigned if T[13] is set), else overflow, code 3. The decimal rules
are the spec's best reading, decision D31 and R441 (log 27, 29, 55). -/
def Obligations.DecimalShift : Prop :=
  ∀ (s : State) (v : Decimal), s.Flat → s.bcdAt s.cur.op1 = .ok v →
    let o := s.cur.op2
    let k : Int := ((o.d2.extractLsb' 5 5).toNat : Int) - (s.cur.d.extractLsb' 5 5).toNat
    let n := digitsValue v.digits
    let m := if k ≤ 0 then n * 10 ^ (-k).toNat
      else n / 10 ^ k.toNat + if o.d2.getLsbD 10 = true ∧ 5 ≤ n / 10 ^ (k.toNat - 1) % 10 then 1 else 0
    (m < 10 ^ (o.len - 1) → ∃ t d, exec .shde s = .next t ∧ DecimalOk o.cells s t ∧ t.bcdAt o = .ok d ∧
      digitsValue d.digits = m ∧ (o.len ≠ 0 → d.neg = (v.neg && !o.d2.getLsbD 13))) ∧
    (10 ^ (o.len - 1) ≤ m → ∃ t, exec .shde s = .next t ∧ DecimalError 3 o.cells s t)

/-- PACK and UPACK with memory management off and a legal op1: op2's field receives op1's number in the other code, its
low-order digits if it does not fit, with its sign where the field has one; the error return is skipped if every
significant digit fitted, else D[4:0] is 3. An illegal ASCII byte is an illegal code of op1. The decimal rules are the
spec's best reading, decision D31 and R441 (log 27, 30, 55, 56). -/
def Obligations.DecimalConvert : Prop :=
  ∀ (s : State), s.Flat →
    (∀ (roles : List AsciiRole) (v : Decimal), asciiRoles s.cur.op1.asciiCode s.cur.op1.len = some roles →
      parseAscii roles (s.bytesAt s.cur.op1.len s.cur.op1.pos) = .ok v →
      let o := s.cur.op2
      ∃ t d, exec .pack s = .next t ∧ t.bcdAt o = .ok d ∧
        digitsValue d.digits = digitsValue v.digits % 10 ^ (o.len - 1) ∧
        (o.len ≠ 0 → d.neg = (v.neg && !(o.d2.getLsbD 13 || s.cur.d.getLsbD 13))) ∧
        (digitsValue v.digits < 10 ^ (o.len - 1) → DecimalOk o.cells s t) ∧
        (10 ^ (o.len - 1) ≤ digitsValue v.digits → DecimalError 3 o.cells s t)) ∧
    (∀ (roles : List AsciiRole) (k : Nat), asciiRoles s.cur.op1.asciiCode s.cur.op1.len = some roles →
      parseAscii roles (s.bytesAt s.cur.op1.len s.cur.op1.pos) = .error k →
      let p := BytePos.advance k s.cur.op1.pos
      exec .pack s = .next (s.setCur { s.cur with
        a := p.addr, d := (if p.half = true then s.cur.d ||| 0o100000 else s.cur.d &&& 0o77777) &&& 0o177740 ||| 2,
        p := s.cur.p + 1 })) ∧
    (∀ (roles : List AsciiRole) (v : Decimal), s.bcdAt s.cur.op1 = .ok v →
      asciiRoles s.cur.op2.asciiCode s.cur.op2.len = some roles →
      let o := s.cur.op2
      let n := (roles.filter (· ≠ .sign)).length
      ∃ t d, exec .upack s = .next t ∧ parseAscii roles (t.bytesAt o.len o.pos) = .ok d ∧
        digitsValue d.digits = digitsValue v.digits % 10 ^ n ∧
        ((∃ r ∈ roles, r ≠ .digit) → d.neg = v.neg) ∧
        (digitsValue v.digits < 10 ^ n → DecimalOk (fieldCells o.len o.pos) s t) ∧
        (10 ^ n ≤ digitsValue v.digits → DecimalError 3 (fieldCells o.len o.pos) s t))

/-! ## Floating point -/

/-- FAD, FSB, FMU, FDV complete where their operand's two or three words can be read, in both formats: the accumulator
(A and D, or T, A and D) becomes the result of the operation of the parameter FpOps on the accumulator, the operand and
TG; Z is set, with its interrupt, if the operation signals an error, and is never cleared; no other flag changes. FDV
by a floating zero, whatever zero NLZ makes, sets the error flag. The arithmetic is a parameter (D41, log 7, 54); the
error flag's interrupt is D20 (log 45). -/
def Obligations.FloatArithmetic : Prop :=
  (∀ (m : AddrMode) (s s1 s2 s3 s4 : State) (ea u v w : Word),
      effAddr m s = .ok ea s1 → memRead ea s1 = .ok u s2 → memRead (ea + 1) s2 = .ok v s3 →
      let z (e : Bool) : Byte := if e = true then s.cur.sts ||| 8 else s.cur.sts
      (s.params.fpFormat = .fp32 →
        let done (f : BitVec 32 → BitVec 32 → Bool → BitVec 32 × Bool) : State :=
          let out := f (s.cur.a ++ s.cur.d) (u ++ v) s.cur.tg
          s.raiseErrorFlag (s3.setCur { s.cur with
            a := out.1.extractLsb' 16 16, d := out.1.extractLsb' 0 16, sts := z out.2, p := s.cur.p + 1 })
        OnlyMarks s s3 ∧ exec (.fad m) s = .next (done fp32.ops.add) ∧ exec (.fsb m) s = .next (done fp32.ops.sub) ∧
        exec (.fmu m) s = .next (done fp32.ops.mul) ∧ exec (.fdv m) s = .next (done fp32.ops.div)) ∧
      (s.params.fpFormat = .fp48 → memRead (ea + 2) s3 = .ok w s4 →
        let done (f : BitVec 48 → BitVec 48 → Bool → BitVec 48 × Bool) : State :=
          let out := f (s.cur.t ++ s.cur.a ++ s.cur.d) (u ++ v ++ w) s.cur.tg
          s.raiseErrorFlag (s4.setCur { s.cur with
            t := out.1.extractLsb' 32 16, a := out.1.extractLsb' 16 16, d := out.1.extractLsb' 0 16, sts := z out.2,
            p := s.cur.p + 1 })
        OnlyMarks s s4 ∧ exec (.fad m) s = .next (done fp48.ops.add) ∧ exec (.fsb m) s = .next (done fp48.ops.sub) ∧
        exec (.fmu m) s = .next (done fp48.ops.mul) ∧ exec (.fdv m) s = .next (done fp48.ops.div))) ∧
  (∀ (m : AddrMode) (s s1 s2 s3 s4 : State) (ea u v w : Word) (sf : BitVec 8) (g : Bool),
      effAddr m s = .ok ea s1 → memRead ea s1 = .ok u s2 → memRead (ea + 1) s2 = .ok v s3 →
      (s.params.fpFormat = .fp32 → u ++ v = fp32.ops.nlz 0 sf g →
        ∃ t, exec (.fdv m) s = .next t ∧ t.cur.z = true) ∧
      (s.params.fpFormat = .fp48 → memRead (ea + 2) s3 = .ok w s4 → u ++ v ++ w = fp48.ops.nlz 0 sf g →
        ∃ t, exec (.fdv m) s = .next t ∧ t.cur.z = true))

/-- NLZ and DNZ complete in every state. NLZ puts a number equal to A * 2^(sf - 16) into the accumulator and writes no
flag. DNZ puts the integer part of the accumulator's value * 2^(-16 - sf) into A and 0 into D, T being open with the
48-bit format, and sets Z, with its interrupt, exactly when that integer is above 32767 in absolute value. NLZ of n
with +16 followed by DNZ with -16 gives n back. The arithmetic is a parameter (D41, log 7, 54); that Z tells overflow
exactly, whatever the scaling factor, is the model's choice (log 57). The statement holds for every value of the open
T. -/
def Obligations.FloatConversion : Prop :=
  ∀ (n : BitVec 8) (s : State),
    (s.params.fpFormat = .fp32 →
      (∃ a d, exec (.nlz n) s = .next (s.setCur { s.cur with a := a, d := d, p := s.cur.p + 1 }) ∧
        SameNumber (fp32.ops.value (a ++ d)) (s.cur.a.toInt, n.toInt - 16)) ∧
      (∃ a e r, exec (.dnz n) s = .next (s.raiseErrorFlag (s.setCur { s.cur with
          a := a, d := 0, sts := if e = true then s.cur.sts ||| 8 else s.cur.sts, p := s.cur.p + 1 })) ∧
        IntegerPart (fp32.ops.value (s.cur.a ++ s.cur.d)) (-16 - n.toInt) r ∧
        e = decide (32767 < |r|) ∧ (e = false → a.toInt = r))) ∧
    (s.params.fpFormat = .fp48 →
      (∃ t a d, exec (.nlz n) s = .next (s.setCur { s.cur with t := t, a := a, d := d, p := s.cur.p + 1 }) ∧
        SameNumber (fp48.ops.value (t ++ a ++ d)) (s.cur.a.toInt, n.toInt - 16)) ∧
      (∃ t a e r, exec (.dnz n) s = .next (s.raiseErrorFlag ((s.drawn 1).setCur { s.cur with
          t := t, a := a, d := 0, sts := if e = true then s.cur.sts ||| 8 else s.cur.sts, p := s.cur.p + 1 })) ∧
        IntegerPart (fp48.ops.value (s.cur.t ++ s.cur.a ++ s.cur.d)) (-16 - n.toInt) r ∧
        e = decide (32767 < |r|) ∧ (e = false → a.toInt = r))) ∧
    (s.cur.a ≠ 0o100000 → ∃ t u, exec (.nlz 16) s = .next t ∧ exec (.dnz (-16)) t = .next u ∧
      u.cur.a = s.cur.a ∧ u.cur.sts = s.cur.sts)

/-! ## Stack -/

/-- INIT and ENTR with memory management off. With room, the four words LINK = L + 1, PREVB = B, STP and SMAX stand at
the base of the new frame, no other byte changes, B is 0o200 above that base and P is at the normal return; without
room, the sum compared without wrap, P is at the error return and nothing else changes. Rests on the spec's decision
D30 (log 31); that the new B compared is modulo 2^16 is the model's choice (log 58). -/
def Obligations.StackEnter : Prop :=
  ∀ s : State, s.Flat →
    let r := s.cur
    let frame (t : State) (base stp smax : Word) (skip : Word) : Prop :=
      t.flatWord base = r.l + 1 ∧ t.flatWord (base + 1) = r.b ∧ t.flatWord (base + 2) = stp ∧
      t.flatWord (base + 3) = smax ∧ t.cur = { r with b := base + 0o200, p := r.p + skip } ∧
      SameOtherLevels s t ∧ SameSystem s t ∧
      SameBytesBut (cellsOf (flatPlace base) ++ cellsOf (flatPlace (base + 1)) ++ cellsOf (flatPlace (base + 2)) ++
        cellsOf (flatPlace (base + 3))) s t
    (let demand := s.flatWord (r.p + 1)
      let start := s.flatWord (r.p + 2)
      let size := s.flatWord (r.p + 3)
      ((start + 0o200).toNat + demand.toNat ≤ start.toNat + size.toNat → ∃ t, exec .init s = .next t ∧
        frame t start (start + 0o200 + demand) (start + size) 7) ∧
      (start.toNat + size.toNat < (start + 0o200).toNat + demand.toNat →
        exec .init s = .next (s.setCur { r with p := r.p + 6 }))) ∧
    (let demand := s.flatWord (r.p + 1)
      let base := s.flatWord (r.b - 0o176)
      let smax := s.flatWord (r.b - 0o175)
      ((base + 0o200).toNat + demand.toNat ≤ smax.toNat → ∃ t, exec .entr s = .next t ∧
        frame t base (base + 0o200 + demand) smax 3) ∧
      (smax.toNat < (base + 0o200).toNat + demand.toNat →
        exec .entr s = .next (s.setCur { r with p := r.p + 2 })))

/-- LEAVE and ELEAV complete where their words can be reached: LEAVE restores B from PREVB and jumps to LINK; ELEAV
(log 32) stores A as ERRCODE of the frame returned to, then LINK - 1 in the frame left, and jumps there. A frame
entered is left exactly: with memory management off, ENTR with room and then LEAVE gives back B and continues at the
address after L, with every register but P as it was. Rests on the spec's decision D30 (log 31, 32). -/
def Obligations.StackLeave : Prop :=
  (∀ (s s1 s2 s3 s4 : State) (link prevb : Word),
      memRead (s.cur.b - 0o200) s = .ok link s1 → memRead (s.cur.b - 0o177) s1 = .ok prevb s2 →
      OnlyMarks s s2 ∧
      exec .leave s = .next (s2.setCur { s.cur with b := prevb, p := link }) ∧
      (memWrite (prevb - 0o173) s.cur.a s2 = .ok () s3 → memWrite (s.cur.b - 0o200) (link - 1) s3 = .ok () s4 →
        exec .eleav s = .next (s4.setCur { s.cur with b := prevb, p := link - 1 }))) ∧
  (∀ s t : State, s.Flat → exec .entr s = .next t → t.cur.p = s.cur.p + 3 →
      ∃ u, exec .leave t = .next u ∧ u.cur = { s.cur with p := s.cur.l + 1 } ∧ SameOtherLevels s u ∧ SameSystem s u)

/-! ## System control, input and output -/

/-- The switches complete in an entitled program: each changes its own flip-flops and P alone. WGLOB and RGLOB move the
three hidden pointers and change P and their registers alone. The clauses about IOF, ION, POF, PON and SEX formalise
the pseudocode of R501 to R504 and R507. -/
def Obligations.SystemSwitches : Prop :=
  ∀ s : State, s.entitled = true →
      let t : State := s.setCur { s.cur with p := s.cur.p + 1 }
      exec .iof s = .next { t with ioni := false } ∧ exec .ion s = .next { t with ioni := true } ∧
      exec .pof s = .next { t with poni := false } ∧ exec .pon s = .next { t with poni := true } ∧
      exec .piof s = .next { t with ioni := false, poni := false } ∧
      exec .pion s = .next { t with ioni := true, poni := true } ∧
      exec .sex s = .next { t with sexi := true } ∧ exec .rex s = .next { t with sexi := false } ∧
      exec .wglob s = .next { t with stbnk := s.cur.t, stsrt := s.cur.a, cmbnk := s.cur.d } ∧
      exec .rglob s = .next (s.setCur
        { s.cur with t := s.stbnk, a := s.stsrt, d := s.cmbnk, p := s.cur.p + 1 })

/-- Input and output complete in an entitled program. An even address of IOX or IOXT, and IDENT, is an input: A takes
what the host's device answers; an odd one gives A to the host. With no device IoxError is raised after the
instruction, A unchanged; if its cause is not enabled an output does nothing and an input leaves A open (log 34). OPCOM
tells the host and changes P alone, LWCS on an ND-110 changes P alone. VERSN, in any program, on an ND-110: A takes the
print version and ALD, T the microprogram version, D[7:0] the byte of the installation number that A[11:8] names,
D[15:8] being open; on an ND-100 it is an illegal instruction. I/O without a device is the spec's decision D35 (log
34), IoxError's code the parameter IIC_CODES (log 13), the host's functions are parameters (log 8), OPCOM is D34 (log
33), D[15:8] after VERSN is open (log 10). -/
def Obligations.InputOutput : Prop :=
  (∀ s : State, s.entitled = true →
    let next : State := (s.drawn 1).setCur { s.cur with p := s.cur.p + 1 }
    let input (o : HostOutput) (answer : Option Word) (t : State) : Prop :=
      let told : State := { next with outbox := o :: s.outbox }
      match answer with
      | some v => t = told.setCur { s.cur with a := v, p := s.cur.p + 1 }
      | none => if s.iie.getLsbD (s.intCode .ioxError).toNat = true then Requested .ioxError told t
        else ∃ v, t = told.setCur { s.cur with a := v, p := s.cur.p + 1 }
    let output (o : HostOutput) (answered : Bool) (t : State) : Prop :=
      let told : State := { next with outbox := o :: s.outbox }
      if answered = false ∧ s.iie.getLsbD (s.intCode .ioxError).toNat = true then Requested .ioxError told t else t = told
    let moves (i : Instr) (addr : Word) : Prop := ∃ t, exec i s = .next t ∧
      (addr.getLsbD 0 = false → input (.ioRead addr) (ioRead s.draws addr) t) ∧
      (addr.getLsbD 0 = true → output (.ioWrite addr s.cur.a) (ioWriteAnswered s.draws addr s.cur.a) t)
    (∀ dev : BitVec 11, moves (.iox dev) (dev.setWidth 16)) ∧ moves .ioxt s.cur.t ∧
    (∃ t, exec .identPl10 s = .next t ∧ input (.ident 10) (ioIdent s.draws 10) t) ∧
    (∃ t, exec .identPl11 s = .next t ∧ input (.ident 11) (ioIdent s.draws 11) t) ∧
    (∃ t, exec .identPl12 s = .next t ∧ input (.ident 12) (ioIdent s.draws 12) t) ∧
    (∃ t, exec .identPl13 s = .next t ∧ input (.ident 13) (ioIdent s.draws 13) t)) ∧
  (∀ s : State,
    let t : State := s.setCur { s.cur with p := s.cur.p + 1 }
    (s.entitled = true → exec .opcom s = .next { t with outbox := .opcom :: s.outbox } ∧
      (s.params.cpuModel = .nd110 → exec .lwcs s = .next t)) ∧
    (s.params.cpuModel = .nd110 → ∃ d, exec .versn s = .next ((s.drawn 1).setCur { s.cur with
          a := s.params.versionInfo.print ++ s.params.versionInfo.ald, t := s.params.versionInfo.microprogram, d := d,
          p := s.cur.p + 1 }) ∧
        s.params.versionInfo.installation[(s.cur.a.toNat / 256 % 16)]? = some (d.extractLsb' 0 8)) ∧
    (s.params.cpuModel = .nd100 → exec .versn s = takeTrap .illegalInstruction s))

/-- TRA and TRR complete in an entitled program on every register that INTERNAL_REG_CODES gives a number: TRA reads STS
(with PIL, SEXI, PONI, IONI in its upper byte), PID, PIE, PID and PIE together, IIC (clearing it), PVL in bits 6-3, and
an open value for a host register; TRR writes STS bits 7-0, PID, PIE, IIE, the PCR of the level in A's bits 6-3, and
nothing for a host register. MCL and MST complete there on STS, PID and PIE: the bits that are 1 in A are cleared or
set and no other; of STS only the running level's low byte, Z newly set being followed by its interrupt. STS is number
1 with any table, the default table is that of R60. The default numbers are general knowledge (log 12), so are the
upper byte of STS (D42, log 16) and the level field of PCR (log 35); host registers are the decision D36 (log 37). -/
def Obligations.InternalRegisters : Prop :=
  (∀ (s : State) (r : BitVec 4), s.entitled = true →
      let a (v : Word) : RegSet := { s.cur with a := v, p := s.cur.p + 1 }
      let t : State := s.setCur { s.cur with p := s.cur.p + 1 }
      let low := s.cur.a.extractLsb' 0 8
      ((s.readReg r = some .sts → ∃ v, exec (.tra r) s = .next ((s.drawn 1).setCur (a v)) ∧
          v.extractLsb' 0 8 = s.cur.sts ∧ v.extractLsb' 8 4 = s.pil ∧
          v.getLsbD 13 = s.sexi ∧ v.getLsbD 14 = s.poni ∧ v.getLsbD 15 = s.ioni) ∧
        (s.readReg r = some .pid → exec (.tra r) s = .next (s.setCur (a s.pid))) ∧
        (s.readReg r = some .pie → exec (.tra r) s = .next (s.setCur (a s.pie))) ∧
        (s.readReg r = some .actl → exec (.tra r) s = .next (s.setCur (a (s.pid &&& s.pie)))) ∧
        (s.readReg r = some .iic → exec (.tra r) s = .next { s.setCur (a (s.iic.setWidth 16)) with iic := 0 }) ∧
        (s.readReg r = some .pvl →
          ∃ v, exec (.tra r) s = .next ((s.drawn 1).setCur (a v)) ∧ v.extractLsb' 3 4 = s.pvl) ∧
        (∀ reg ∈ ([.pans, .opr, .psr, .csr, .ald, .pes, .pgc, .pea, .cs] : List ReadReg), s.readReg r = some reg →
          ∃ v, exec (.tra r) s = .next ((s.drawn 1).setCur (a v)))) ∧
      ((s.writeReg r = some .sts →
          exec (.trr r) s = .next (s.raiseErrorFlag (s.setCur { s.cur with sts := low, p := s.cur.p + 1 })) ∧
          exec (.mcl r) s = .next (s.setCur { s.cur with sts := s.cur.sts &&& ~~~low, p := s.cur.p + 1 }) ∧
          exec (.mst r) s = .next (s.raiseErrorFlag
            (s.setCur { s.cur with sts := s.cur.sts ||| low, p := s.cur.p + 1 }))) ∧
        (s.writeReg r = some .pid → exec (.trr r) s = .next { t with pid := s.cur.a } ∧
          exec (.mcl r) s = .next { t with pid := s.pid &&& ~~~s.cur.a } ∧
          exec (.mst r) s = .next { t with pid := s.pid ||| s.cur.a }) ∧
        (s.writeReg r = some .pie → exec (.trr r) s = .next { t with pie := s.cur.a } ∧
          exec (.mcl r) s = .next { t with pie := s.pie &&& ~~~s.cur.a } ∧
          exec (.mst r) s = .next { t with pie := s.pie ||| s.cur.a }) ∧
        (s.writeReg r = some .iie → exec (.trr r) s = .next { t with iie := s.cur.a }) ∧
        (s.writeReg r = some .pcr → ∃ u, exec (.trr r) s = .next u ∧ u = { t with pcr := u.pcr } ∧
          u.pcrOf (s.cur.a.extractLsb' 3 4) = s.cur.a ∧
          ∀ lv, lv ≠ s.cur.a.extractLsb' 3 4 → u.pcrOf lv = s.pcrOf lv) ∧
        (∀ reg ∈ ([.panc, .lmp, .ccl, .lcil, .ucil, .cilp, .eccr, .cs] : List WriteReg), s.writeReg r = some reg →
          exec (.trr r) s = .next t))) ∧
  (∀ s : State, (s.readReg 1 = some .sts ∧ s.writeReg 1 = some .sts) ∧
    (∀ r : BitVec 4, r ≠ 1 → some (s.readReg r) = s.params.regCodes.read[r.toNat]? ∧
      some (s.writeReg r) = s.params.regCodes.write[r.toNat]?) ∧
    (s.params.regCodes = .default →
      (List.range 16).map (fun n => s.readReg (BitVec.ofNat 4 n)) = [some .pans, some .sts, some .opr, some .psr,
        some .pvl, some .iic, some .pid, some .pie, some .csr, some .actl, some .ald, some .pes, some .pgc, some .pea,
        none, none] ∧
      (List.range 16).map (fun n => s.writeReg (BitVec.ofNat 4 n)) = [some .panc, some .sts, some .lmp, some .pcr,
        none, some .iie, some .pid, some .pie, some .ccl, some .lcil, some .ucil, some .cilp, none, some .eccr,
        none, none]))

/-- IRR and IRW complete in an entitled program, for every register of every level. IRR reads it into A, STS with the
system-wide upper byte, the own P as the next instruction's. IRW writes it from A, of STS the low byte; writing the own
P is a jump. No other register of any level changes. The own level and STS are the spec's decision D43 (log 50), the
upper byte of STS is log 16. -/
def Obligations.InterRegister : Prop :=
  ∀ (lv : Level) (reg : RegCode) (s : State), s.entitled = true →
    let new : RegSet := if reg = .zero then { s.level lv with sts := s.cur.a.extractLsb' 0 8 }
      else (s.level lv).set reg s.cur.a
    (∃ v u, exec (.irr lv reg) s = .next (u.setCur { s.cur with a := v, p := s.cur.p + 1 }) ∧
      (reg ≠ .zero → u = s ∧ v = if lv = s.pil ∧ reg = .p then s.cur.p + 1 else (s.level lv).get reg) ∧
      (reg = .zero → u = s.drawn 1 ∧ v.extractLsb' 0 8 = (s.level lv).sts ∧ v.extractLsb' 8 4 = s.pil ∧
        v.getLsbD 13 = s.sexi ∧ v.getLsbD 14 = s.poni ∧ v.getLsbD 15 = s.ioni)) ∧
    (∃ t, exec (.irw lv reg) s = .next (s.raiseErrorFlag t) ∧ t = { s with regs := t.regs } ∧
      (∀ k, k ≠ lv → k ≠ s.pil → t.level k = s.level k) ∧
      (lv ≠ s.pil → t.level lv = new ∧ t.cur = { s.cur with p := s.cur.p + 1 }) ∧
      (lv = s.pil → t.cur = if reg = .p then new else { new with p := s.cur.p + 1 }))

/-- LRB and SRB complete in an entitled program with memory management off: the eight words at X are P, X, T, A, D, L,
STS, B of the level. LRB loads them all (of STS the low byte; not the own P); SRB stores them all (the own P as the
next instruction's) and no other byte changes. The own level and STS are the spec's decision D43 (log 50), the upper
byte of STS is log 16. -/
def Obligations.RegisterBlocks : Prop :=
  ∀ (lv : Level) (s : State), s.Flat →
    let w (s : State) (n : Word) : Word := s.flatWord (s.cur.x + n)
    let loaded : RegSet :=
      { p := w s 0, x := w s 1, t := w s 2, a := w s 3, d := w s 4, l := w s 5, sts := (w s 6).extractLsb' 0 8, b := w s 7 }
    (∃ t, exec (.lrb lv) s = .next (s.raiseErrorFlag t) ∧ t = { s with regs := t.regs } ∧
      (∀ k, k ≠ lv → k ≠ s.pil → t.level k = s.level k) ∧
      (lv ≠ s.pil → t.level lv = loaded ∧ t.cur = { s.cur with p := s.cur.p + 1 }) ∧
      (lv = s.pil → t.cur = { loaded with p := s.cur.p + 1 })) ∧
    (∃ t, exec (.srb lv) s = .next t ∧ t.cur = { s.cur with p := s.cur.p + 1 } ∧
      SameOtherLevels s t ∧ SameSystem s t ∧
      t.flatWord s.cur.x = (if lv = s.pil then s.cur.p + 1 else (s.level lv).p) ∧
      t.flatWord (s.cur.x + 1) = (s.level lv).x ∧ t.flatWord (s.cur.x + 2) = (s.level lv).t ∧
      t.flatWord (s.cur.x + 3) = (s.level lv).a ∧ t.flatWord (s.cur.x + 4) = (s.level lv).d ∧
      t.flatWord (s.cur.x + 5) = (s.level lv).l ∧
      (t.flatWord (s.cur.x + 6)).extractLsb' 0 8 = (s.level lv).sts ∧
      (t.flatWord (s.cur.x + 6)).extractLsb' 8 4 = s.pil ∧ t.flatWord (s.cur.x + 7) = (s.level lv).b ∧
      SameBytesBut ((List.range 8).flatMap fun n => cellsOf (flatPlace (s.cur.x + BitVec.ofNat 16 n))) s t)

/-! ## Physical memory, SINTRAN -/

/-- The instructions that load one register from physical memory complete in an entitled program on installed memory,
whatever PONI is: EXAM from bank A, address D; the xxTX loads from bank T, address X + displacement; LASB, LXSB from
bank STBNK and LACB, LXCB from bank CMBNK, address B + displacement; RDUSP from bank T, address X; LBYTP a byte, LBITP
a bit into K. Nothing else changes. Addresses are the spec's decision D27, bits and bytes D28 and D29 (log 47, 48),
LDBTX D39 (log 53). -/
def Obligations.PhysicalLoads : Prop :=
  ∀ (e : BitVec 3) (s : State), s.entitled = true →
    let r := s.cur
    let d : Word := e.setWidth 16
    let there (b a : Word) : Prop := s.installed (s.physPlace b a) = true
    let at' (b a : Word) : Word := s.readPlace (s.physPlace b a)
    let go (q : RegSet) : State := s.setCur { q with p := r.p + 1 }
    (there r.a r.d → exec .exam s = .next (go { r with t := at' r.a r.d })) ∧
    (there r.t (r.x + d) →
      exec (.ldatx e) s = .next (go { r with a := at' r.t (r.x + d) }) ∧
      exec (.ldxtx e) s = .next (go { r with x := at' r.t (r.x + d) }) ∧
      exec (.ldbtx e) s = .next (go { r with b := 0o177000 ||| (2 * at' r.t (r.x + d)) }) ∧
      (there r.t (r.x + d + 1) →
        exec (.lddtx e) s = .next (go { r with a := at' r.t (r.x + d), d := at' r.t (r.x + d + 1) }))) ∧
    (there s.stbnk (r.b + d) →
      exec (.lasb e) s = .next (go { r with a := at' s.stbnk (r.b + d) }) ∧
      exec (.lxsb e) s = .next (go { r with x := at' s.stbnk (r.b + d) })) ∧
    (there s.cmbnk (r.b + d) →
      exec (.lacb e) s = .next (go { r with a := at' s.cmbnk (r.b + d) }) ∧
      exec (.lxcb e) s = .next (go { r with x := at' s.cmbnk (r.b + d) })) ∧
    (there r.t r.x → exec .rdusp s = .next (go { r with a := at' r.t r.x })) ∧
    (there r.d (r.t + r.x >>> 1) →
      exec .lbytp s = .next (go { r with a := BitVec.ofNat 16 (if r.x.getLsbD 0 = true
        then (at' r.d (r.t + r.x >>> 1)).toNat % 256 else (at' r.d (r.t + r.x >>> 1)).toNat / 256) })) ∧
    (there r.t (r.x + r.a >>> 4) →
      exec .lbitp s = .next (go { r with
        sts := if (at' r.t (r.x + r.a >>> 4)).getLsbD (r.a.toNat % 16) = true then r.sts ||| 4 else r.sts &&& ~~~4 }))

/-- The instructions that store into physical memory complete in an entitled program on installed memory, whatever PONI
is: DEPO, STATX, STZTX, STDTX, SASB, SZSB, SACB, SZCB, SBYTP (the other byte kept), SBITP (the other bits kept), TSETP
(the old word into A, all ones into memory). Every byte but those of the word is as it was, and no register but P (and
for TSETP A) changes. Addresses are the spec's decision D27, bits and bytes D28 and D29 (log 47, 48). -/
def Obligations.PhysicalStores : Prop :=
  ∀ (e : BitVec 3) (s : State), s.entitled = true →
    let r := s.cur
    let d : Word := e.setWidth 16
    let there (b a : Word) : Prop := s.installed (s.physPlace b a) = true
    let at' (b a : Word) : Word := s.readPlace (s.physPlace b a)
    let stored (i : Instr) (b a v : Word) (q : RegSet) : Prop := ∃ t, exec i s = .next t ∧
      t.readPlace (s.physPlace b a) = v ∧ t.cur = { q with p := r.p + 1 } ∧
      SameBytesBut (cellsOf (s.physPlace b a)) s t ∧ SameOtherLevels s t ∧ SameSystem s t
    (there r.a r.d → stored .depo r.a r.d r.t r) ∧
    (there r.t (r.x + d) → stored (.statx e) r.t (r.x + d) r.a r ∧ stored (.stztx e) r.t (r.x + d) 0 r ∧
      (there r.t (r.x + d + 1) → ∃ t, exec (.stdtx e) s = .next t ∧
        t.readPlace (s.physPlace r.t (r.x + d)) = r.a ∧ t.readPlace (s.physPlace r.t (r.x + d + 1)) = r.d ∧
        t.cur = { r with p := r.p + 1 } ∧ SameOtherLevels s t ∧ SameSystem s t ∧
        SameBytesBut (cellsOf (s.physPlace r.t (r.x + d)) ++ cellsOf (s.physPlace r.t (r.x + d + 1))) s t)) ∧
    (there s.stbnk (r.b + d) → stored (.sasb e) s.stbnk (r.b + d) r.a r ∧ stored (.szsb e) s.stbnk (r.b + d) 0 r) ∧
    (there s.cmbnk (r.b + d) → stored (.sacb e) s.cmbnk (r.b + d) r.a r ∧ stored (.szcb e) s.cmbnk (r.b + d) 0 r) ∧
    (there r.d (r.t + r.x >>> 1) → stored .sbytp r.d (r.t + r.x >>> 1)
      (storeByte (at' r.d (r.t + r.x >>> 1)) (r.x.getLsbD 0) (r.a.extractLsb' 0 8)) r) ∧
    (there r.t (r.x + r.a >>> 4) → ∃ v : Word, stored .sbitp r.t (r.x + r.a >>> 4) v r ∧
      ∀ n, n < 16 → v.getLsbD n = if n = r.a.toNat % 16 then r.k else (at' r.t (r.x + r.a >>> 4)).getLsbD n) ∧
    (there r.t r.x → stored .tsetp r.t r.x 0o177777 { r with a := at' r.t r.x })

/-- RDUS, LBIT, SBIT and TSET complete in an entitled program where their logical word can be reached: RDUS loads A
from T; LBIT and SBIT move bit A[3:0] of word X + A/16 to and from K, the other bits kept; TSET, its address being
translated once as a write, loads A from T and leaves all ones there. The bit numbering is the spec's decision D29 (log
48), TSET's one translation D44 (log 50). -/
def Obligations.LogicalAccess : Prop :=
  ∀ (s s1 s2 : State) (v : Word) (p : TransTarget), s.entitled = true →
    let r := s.cur
    let ba : Word := r.x + r.a >>> 4
    (memRead r.t s = .ok v s1 → OnlyMarks s s1 ∧
      exec .rdus s = .next (s1.setCur { r with a := v, p := r.p + 1 })) ∧
    (memRead ba s = .ok v s1 → OnlyMarks s s1 ∧
      exec .lbit s = .next (s1.setCur { r with
        sts := if v.getLsbD (r.a.toNat % 16) = true then r.sts ||| 4 else r.sts &&& ~~~4, p := r.p + 1 }) ∧
      (locate .write .untagged ba s1 = .ok p s2 → ∃ w : Word,
        exec .sbit s = .next ((s2.writePlace w p).setCur { r with p := r.p + 1 }) ∧ OnlyMarks s s2 ∧
        ∀ n, n < 16 → w.getLsbD n = if n = r.a.toNat % 16 then r.k else v.getLsbD n)) ∧
    (locate .write .untagged r.t s = .ok p s1 → OnlyMarks s s1 ∧
      exec .tset s = .next ((s1.writePlace 0o177777 p).setCur { r with a := s1.readPlace p, p := r.p + 1 }) ∧
      SameBytesBut (cellsOf p) s1 (s1.writePlace 0o177777 p))

/-- SETPT, CLEPT and CLEPU complete in an entitled program, whatever PONI is, one record of the chain a step: with X = 0
P goes on and nothing else changes. SETPT copies the record's two words into its page-table entry, PGU cleared; CLEPT
saves the entry's first word in the record and clears it, if it is not 0; CLEPU does that too and puts its PGU bit into
the page map at L (the map's reading is the model's, log 36). X goes on to the next record, read last; P stays. They
complete where the record is installed and the logical accesses made after the entry is first reached can be made: a
write to the page tables can end the entitlement. With memory management off and all of the logical space installed
they always can, and no other byte changes where the saved word, the entry and the map do not overlap. Rests on the
spec's decision D49 (log 36). -/
def Obligations.PageTableLists : Prop :=
  (∀ s : State, s.entitled = true →
    let r := s.cur
    let done : State := s.setCur { r with p := r.p + 1 }
    let there (a : Word) : Prop := s.installed (s.physPlace r.t a) = true
    let at' (u : State) (a : Word) : Word := u.readPlace (s.physPlace r.t a)
    let entry : Word := 0o177000 ||| (2 * at' s (r.x + 1))
    let first : Word := at' s (r.x + 2) &&& ~~~0o4000
    let old : Word := s.flatWord entry
    let saved (u : State) : State := u.writePlace old (s.physPlace r.t (r.x + 2))
    let map : Word := r.l + BitVec.ofNat 16 ((at' s (r.x + 1)).toNat / 16 % 8)
    memRead entry s = .ok old s ∧
    (r.x = 0 → exec .setpt s = .next done ∧ exec .clept s = .next done ∧ exec .clepu s = .next done) ∧
    (r.x ≠ 0 → there r.x → there (r.x + 1) →
      (∀ s1 s2, there (r.x + 2) → there (r.x + 3) → memWrite entry first s = .ok () s1 →
        memWrite (entry + 1) (at' s (r.x + 3)) s1 = .ok () s2 →
        exec .setpt s = .next (s2.setCur
          { r with a := first, d := at' s (r.x + 3), b := entry, x := at' s2 r.x })) ∧
      (old = 0 → ∀ i, i = Instr.clept ∨ i = .clepu →
        exec i s = .next (s.setCur { r with a := 0, b := entry, x := at' s r.x })) ∧
      (old ≠ 0 → there (r.x + 2) →
        (∀ s1, memWrite entry 0 (saved s) = .ok () s1 →
          exec .clept s = .next (s1.setCur { r with a := old, b := entry, x := at' s1 r.x })) ∧
        (∀ v w s1 s2 s3, memRead map s = .ok v s1 →
          (∀ k, k < 16 → w.getLsbD k =
            if k = (at' s (r.x + 1)).toNat % 16 then old.getLsbD 11 else v.getLsbD k) →
          memWrite map w s1 = .ok () s2 → memWrite entry 0 (saved s2) = .ok () s3 →
          exec .clepu s = .next (s3.setCur { r with a := old, b := entry, x := at' s3 r.x }))))) ∧
  (∀ s : State, s.Flat →
    let r := s.cur
    let there (a : Word) : Prop := s.installed (s.physPlace r.t a) = true
    let at' (u : State) (a : Word) : Word := u.readPlace (s.physPlace r.t a)
    let entry : Word := 0o177000 ||| (2 * at' s (r.x + 1))
    r.x ≠ 0 → there r.x → there (r.x + 1) → there (r.x + 2) → there (r.x + 3) →
      (∃ t, exec .setpt s = .next t ∧
        t.flatWord entry = at' s (r.x + 2) &&& ~~~0o4000 ∧ t.flatWord (entry + 1) = at' s (r.x + 3) ∧
        SameBytesBut (cellsOf (flatPlace entry) ++ cellsOf (flatPlace (entry + 1))) s t ∧
        t.cur = { r with a := at' s (r.x + 2) &&& ~~~0o4000, d := at' s (r.x + 3), b := entry, x := at' t r.x } ∧
        SameOtherLevels s t ∧ SameSystem s t) ∧
      (let old := s.flatWord entry
        let saved := s.physPlace r.t (r.x + 2)
        old ≠ 0 → saved ≠ flatPlace entry →
          (∃ t, exec .clept s = .next t ∧ t.readPlace saved = old ∧ t.flatWord entry = 0 ∧
            SameBytesBut (cellsOf saved ++ cellsOf (flatPlace entry)) s t ∧
            t.cur = { r with a := old, b := entry, x := at' t r.x } ∧ SameOtherLevels s t ∧ SameSystem s t) ∧
          (let n := at' s (r.x + 1)
            let map : Word := r.l + BitVec.ofNat 16 (n.toNat / 16 % 8)
            flatPlace map ≠ saved → map ≠ entry →
            ∃ t, exec .clepu s = .next t ∧ t.readPlace saved = old ∧ t.flatWord entry = 0 ∧
              (∀ k, k < 16 → (t.flatWord map).getLsbD k =
                if k = n.toNat % 16 then old.getLsbD 11 else (s.flatWord map).getLsbD k) ∧
              SameBytesBut (cellsOf saved ++ cellsOf (flatPlace entry) ++ cellsOf (flatPlace map)) s t ∧
              t.cur = { r with a := old, b := entry, x := at' t r.x } ∧ SameOtherLevels s t ∧ SameSystem s t)))

/-! ## Stops -/

/-- Where the spec gives no effect, the model refuses by name: GECO; IOT never executes, being privileged or illegal;
the eight SINTRAN instructions and LWCS on an ND-100 after the privilege check; numbers that INTERNAL_REG_CODES gives
no internal register, and for MCL and MST no STS, PID or PIE; bits 8 to 15 of STS; ASCII sign codes that are not
assigned. IOT's trap is the spec's decision D38; the default numbers of internal registers are log 12; that UPACK and
PACK refuse before they read is log 56. -/
def Obligations.UndescribedStops : Prop :=
  ∀ s : State,
    exec .geco s = .refused .gecoUndocumented ∧
    (∀ n : BitVec 11, (s.entitled = true → exec (.iot n) s = takeTrap .illegalInstruction s) ∧
      (s.entitled = false → exec (.iot n) s = takeTrap .privilegedInstruction s)) ∧
    (s.entitled = true →
      exec .clnreent s = .refused (.sintranUndefined "CLNREENT") ∧
      exec .chreentpages s = .refused (.sintranUndefined "CHREENTPAGES") ∧
      exec .clpt s = .refused (.sintranUndefined "CLPT") ∧ exec .cnrek s = .refused (.sintranUndefined "CNREK") ∧
      exec .enpt s = .refused (.sintranUndefined "ENPT") ∧ exec .inspl s = .refused (.sintranUndefined "INSPL") ∧
      exec .rempl s = .refused (.sintranUndefined "REMPL") ∧ exec .rept s = .refused (.sintranUndefined "REPT") ∧
      (s.params.cpuModel = .nd100 → exec .lwcs s = .refused .lwcsOnNd100) ∧
      (∀ r : BitVec 4,
        (s.readReg r = none → exec (.tra r) s = .refused (.internalRegisterUnassigned r)) ∧
        (s.writeReg r = none → exec (.trr r) s = .refused (.internalRegisterUnassigned r)) ∧
        ((∀ reg ∈ ([.sts, .pid, .pie] : List WriteReg), s.writeReg r ≠ some reg) →
          exec (.mcl r) s = .refused (.internalRegisterUnassigned r) ∧
          exec (.mst r) s = .refused (.internalRegisterUnassigned r)))) ∧
    (∀ bn : BitVec 4, 8 ≤ bn.toNat →
      exec (.bsetZro bn .zero) s = .refused (.stsUpperBit bn) ∧ exec (.bsetOne bn .zero) s = .refused (.stsUpperBit bn) ∧
      exec (.bsetBcm bn .zero) s = .refused (.stsUpperBit bn) ∧ exec (.bsetBac bn .zero) s = .refused (.stsUpperBit bn) ∧
      exec (.bskpZro bn .zero) s = .refused (.stsUpperBit bn) ∧ exec (.bskpOne bn .zero) s = .refused (.stsUpperBit bn) ∧
      exec (.bskpBcm bn .zero) s = .refused (.stsUpperBit bn) ∧ exec (.bskpBac bn .zero) s = .refused (.stsUpperBit bn) ∧
      exec (.bstc bn .zero) s = .refused (.stsUpperBit bn) ∧ exec (.bsta bn .zero) s = .refused (.stsUpperBit bn) ∧
      exec (.bldc bn .zero) s = .refused (.stsUpperBit bn) ∧ exec (.blda bn .zero) s = .refused (.stsUpperBit bn) ∧
      exec (.banc bn .zero) s = .refused (.stsUpperBit bn) ∧ exec (.band bn .zero) s = .refused (.stsUpperBit bn) ∧
      exec (.borc bn .zero) s = .refused (.stsUpperBit bn) ∧ exec (.bora bn .zero) s = .refused (.stsUpperBit bn)) ∧
    (4 < s.cur.op1.asciiCode.toNat → exec .pack s = .refused (.asciiCodeUnassigned s.cur.op1.asciiCode)) ∧
    (4 < s.cur.op2.asciiCode.toNat → exec .upack s = .refused (.asciiCodeUnassigned s.cur.op2.asciiCode))
end

