-- ==== Sys2Proof/Laws/Memory.lean ====
section
/-! SUPPORT. The laws of the stores: a read after a write to the same place gives the value written, a write leaves
every other place alone, and every write keeps the canonical form. -/

namespace Sys2Proof.Machine

open Sys2Proof

@[simp] theorem Memory.byteAt_nil (n : Nat) : Memory.byteAt [] n = 0 := rfl

/-- The listed addresses of a list of cells are above a bound. -/
abbrev Memory.above (m : Memory) (n : Nat) : Prop := ∀ c ∈ m, n < c.1

theorem Memory.wf_cons {a : Nat} {b : Byte} {m : Memory} :
    Memory.wf ((a, b) :: m) ↔ Memory.above m a ∧ b ≠ 0 ∧ Memory.wf m := by
  simp only [Memory.wf, Memory.above, List.map_cons, List.pairwise_cons, List.mem_map, List.mem_cons,
    Memory.unlisted]
  constructor
  · rintro ⟨⟨h1, h2⟩, h3⟩
    exact ⟨fun c hc => h1 c.1 ⟨c, hc, rfl⟩, h3 _ (.inl rfl), h2, fun c hc => h3 c (.inr hc)⟩
  · rintro ⟨h1, h2, h3, h4⟩
    refine ⟨⟨?_, h3⟩, ?_⟩
    · rintro _ ⟨c, hc, rfl⟩
      exact h1 c hc
    · rintro c (rfl | hc)
      · exact h2
      · exact h4 c hc

theorem Memory.byteAt_of_above {m : Memory} {n : Nat} (h : ∀ c ∈ m, c.1 ≠ n) : m.byteAt n = 0 := by
  induction m with
  | nil => rfl
  | cons c m ih =>
    simp only [Memory.byteAt]
    rw [if_neg (fun e => h c (by simp) e.symm)]
    exact ih fun d hd => h d (by simp [hd])

theorem Memory.mem_erase {m : Memory} {n : Nat} {c : Host.Cell} (h : c ∈ m.erase n) : c ∈ m ∧ c.1 ≠ n := by
  induction m with
  | nil => simp [Memory.erase] at h
  | cons d m ih =>
    simp only [Memory.erase] at h
    split at h
    · exact ⟨by simp [(ih h).1], (ih h).2⟩
    · rcases List.mem_cons.1 h with rfl | h
      · exact ⟨by simp, fun e => by simp_all⟩
      · exact ⟨by simp [(ih h).1], (ih h).2⟩

theorem Memory.mem_insert {m : Memory} {n : Nat} {v : Byte} {c : Host.Cell} (h : c ∈ m.insert n v) :
    c = (n, v) ∨ c ∈ m := by
  induction m with
  | nil => exact .inl (by simpa [Memory.insert] using h)
  | cons d m ih =>
    simp only [Memory.insert] at h
    split at h
    · simpa using h
    · rcases List.mem_cons.1 h with rfl | h
      · exact .inr (by simp)
      · rcases ih h with rfl | h
        · exact .inl rfl
        · exact .inr (by simp [h])

theorem Memory.erase_wf {m : Memory} (n : Nat) (h : m.wf) : (m.erase n).wf := by
  induction m with
  | nil => exact h
  | cons c m ih =>
    obtain ⟨h1, h2, h3⟩ := Memory.wf_cons.1 h
    simp only [Memory.erase]
    split
    · exact ih h3
    · exact Memory.wf_cons.2 ⟨fun d hd => h1 d (Memory.mem_erase hd).1, h2, ih h3⟩

theorem Memory.insert_wf {m : Memory} {n : Nat} {v : Byte} (h : m.wf) (hn : ∀ c ∈ m, c.1 ≠ n) (hv : v ≠ 0) :
    (m.insert n v).wf := by
  induction m with
  | nil => exact Memory.wf_cons.2 ⟨by simp, hv, h⟩
  | cons c m ih =>
    obtain ⟨h1, h2, h3⟩ := Memory.wf_cons.1 h
    have hc : c.1 ≠ n := hn c (by simp)
    simp only [Memory.insert]
    split
    · rename_i hlt
      refine Memory.wf_cons.2 ⟨?_, hv, h⟩
      intro d hd
      rcases List.mem_cons.1 hd with rfl | hd
      · exact hlt
      · exact hlt.trans (h1 d hd)
    · refine Memory.wf_cons.2 ⟨?_, h2, ih h3 fun d hd => hn d (by simp [hd])⟩
      intro d hd
      rcases Memory.mem_insert hd with rfl | hd
      · simp only; omega
      · exact h1 d hd

theorem Memory.byteAt_erase (m : Memory) (n k : Nat) : (m.erase n).byteAt k = if k = n then 0 else m.byteAt k := by
  induction m with
  | nil => simp [Memory.erase]
  | cons c m ih =>
    simp only [Memory.erase]
    split <;> simp only [Memory.byteAt, ih] <;> grind

theorem Memory.byteAt_insert (m : Memory) {n : Nat} (v : Byte) (hn : ∀ c ∈ m, c.1 ≠ n) (k : Nat) :
    (m.insert n v).byteAt k = if k = n then v else m.byteAt k := by
  induction m with
  | nil => simp [Memory.insert, Memory.byteAt, Memory.unlisted]
  | cons c m ih =>
    have hc : c.1 ≠ n := hn c (by simp)
    have := ih fun d hd => hn d (by simp [hd])
    simp only [Memory.insert]
    split <;> simp only [Memory.byteAt, this] <;> grind

/-- A byte read after a write: the value written at its address, every other byte as before. -/
theorem Memory.byteAt_writeByte (m : Memory) (n : Nat) (v : Byte) (k : Nat) :
    (m.writeByte n v).byteAt k = if k = n then v else m.byteAt k := by
  by_cases hv : v = Memory.unlisted
  · simp only [Memory.writeByte, if_pos hv, Memory.byteAt_erase]
    rw [hv]; rfl
  · rw [Memory.writeByte, if_neg hv, Memory.byteAt_insert _ _ fun c hc => (Memory.mem_erase hc).2, Memory.byteAt_erase]
    grind

/-- Writing a byte keeps the canonical form. -/
theorem Memory.writeByte_wf {m : Memory} (n : Nat) (v : Byte) (h : m.wf) : (m.writeByte n v).wf := by
  by_cases hv : v = Memory.unlisted
  · rw [Memory.writeByte, if_pos hv]
    exact Memory.erase_wf n h
  · rw [Memory.writeByte, if_neg hv]
    exact Memory.insert_wf (Memory.erase_wf n h) (fun c hc => (Memory.mem_erase hc).2) hv

/-- Writing a byte lists no address but its own and those listed before. -/
theorem Memory.writeByte_bound {m : Memory} {n k : Nat} {v : Byte} (hn : n < k) (h : ∀ c ∈ m, c.1 < k) :
    ∀ c ∈ m.writeByte n v, c.1 < k := by
  intro c hc
  simp only [Memory.writeByte] at hc
  split at hc
  · exact h c (Memory.mem_erase hc).1
  · rcases Memory.mem_insert hc with rfl | hc
    · exact hn
    · exact h c (Memory.mem_erase hc).1

/-- Writing a word keeps the canonical form. -/
theorem Memory.writeWord_wf {m : Memory} (w : Nat) (v : Word) (h : m.wf) : (m.writeWord w v).wf :=
  Memory.writeByte_wf _ _ (Memory.writeByte_wf _ _ h)

theorem Memory.writeWord_bound {m : Memory} {w k : Nat} {v : Word} (hn : w < k) (h : ∀ c ∈ m, c.1 < 2 * k) :
    ∀ c ∈ m.writeWord w v, c.1 < 2 * k :=
  Memory.writeByte_bound (by omega) (Memory.writeByte_bound (by omega) h)

/-- A byte read after a word is written. -/
theorem Memory.byteAt_writeWord (m : Memory) (w : Nat) (v : Word) (k : Nat) :
    (m.writeWord w v).byteAt k =
      if k = 2 * w then leftByte v else if k = 2 * w + 1 then rightByte v else m.byteAt k := by
  simp only [Memory.writeWord, Memory.byteAt_writeByte]
  grind

@[simp] theorem leftByte_append_rightByte (v : Word) : leftByte v ++ rightByte v = v := by
  simp only [leftByte, rightByte]; ext i hi; grind

@[simp] theorem leftByte_append (a b : Byte) : leftByte (a ++ b) = a := by
  simp only [leftByte]; ext i hi; grind

@[simp] theorem rightByte_append (a b : Byte) : rightByte (a ++ b) = b := by
  simp only [rightByte]; ext i hi; grind

/-- A word read after a word is written: the value written at its address, every other word as before. -/
theorem Memory.wordAt_writeWord (m : Memory) (w : Nat) (v : Word) (k : Nat) :
    (m.writeWord w v).wordAt k = if k = w then v else m.wordAt k := by
  simp only [Memory.wordAt, Memory.byteAt_writeWord]
  by_cases hk : k = w
  · subst hk; simp
  · rw [if_neg hk, if_neg (by omega), if_neg (by omega), if_neg (by omega), if_neg (by omega)]

/-- Two stores in canonical form that read alike are one list. -/
theorem Memory.eq_of_byteAt {m m' : Memory} (h : m.wf) (h' : m'.wf) (e : ∀ n, m.byteAt n = m'.byteAt n) : m = m' := by
  induction m generalizing m' with
  | nil =>
    cases m' with
    | nil => rfl
    | cons c m' => exact absurd ((e c.1).symm.trans rfl) (by simpa [Memory.byteAt, Memory.unlisted] using (Memory.wf_cons.1 h').2.1)
  | cons c m ih =>
    obtain ⟨a, b⟩ := c
    obtain ⟨h1, h2, h3⟩ := Memory.wf_cons.1 h
    cases m' with
    | nil => exact absurd (e a) (by simpa [Memory.byteAt, Memory.unlisted] using h2)
    | cons d m' =>
      obtain ⟨a', b'⟩ := d
      obtain ⟨h1', h2', h3'⟩ := Memory.wf_cons.1 h'
      have ha : a = a' := by
        by_contra hne
        rcases lt_or_gt_of_ne hne with hlt | hlt
        · have := e a
          simp only [Memory.byteAt, if_true, if_neg hne] at this
          rw [Memory.byteAt_of_above (m := m') fun c hc => by have := h1' c hc; omega] at this
          exact h2 this
        · have := e a'
          simp only [Memory.byteAt, if_true, if_neg (Ne.symm hne)] at this
          rw [Memory.byteAt_of_above (m := m) fun c hc => by have := h1 c hc; omega] at this
          exact h2' this.symm
      subst ha
      have hb : b = b' := by simpa [Memory.byteAt] using e a
      subst hb
      refine congrArg _ (ih h3 h3' fun n => ?_)
      by_cases hn : n = a
      · subst hn
        rw [Memory.byteAt_of_above fun c hc => by have := h1 c hc; omega,
          Memory.byteAt_of_above fun c hc => by have := h1' c hc; omega]
      · simpa [Memory.byteAt, hn] using e n

end Sys2Proof.Machine
end

