-- ==== Sys2Proof/Laws/State.lean ====
section
/-! SUPPORT. What each named update of the state leaves in each field: all true by unfolding, so that no later proof
unfolds a record update. -/

namespace Sys2Proof.Machine

open Sys2Proof

/-! ## setLevel -/

section

variable (s : State) (lv : Level) (r : RegSet)

@[simp] theorem State.setLevel_regs : (s.setLevel lv r).regs = s.regs.set lv.toNat r lv.isLt := rfl
@[simp] theorem State.setLevel_pcr : (s.setLevel lv r).pcr = s.pcr := rfl
@[simp] theorem State.setLevel_pil : (s.setLevel lv r).pil = s.pil := rfl
@[simp] theorem State.setLevel_ioni : (s.setLevel lv r).ioni = s.ioni := rfl
@[simp] theorem State.setLevel_poni : (s.setLevel lv r).poni = s.poni := rfl
@[simp] theorem State.setLevel_sexi : (s.setLevel lv r).sexi = s.sexi := rfl
@[simp] theorem State.setLevel_pid : (s.setLevel lv r).pid = s.pid := rfl
@[simp] theorem State.setLevel_pie : (s.setLevel lv r).pie = s.pie := rfl
@[simp] theorem State.setLevel_iic : (s.setLevel lv r).iic = s.iic := rfl
@[simp] theorem State.setLevel_iie : (s.setLevel lv r).iie = s.iie := rfl
@[simp] theorem State.setLevel_pvl : (s.setLevel lv r).pvl = s.pvl := rfl
@[simp] theorem State.setLevel_stbnk : (s.setLevel lv r).stbnk = s.stbnk := rfl
@[simp] theorem State.setLevel_stsrt : (s.setLevel lv r).stsrt = s.stsrt := rfl
@[simp] theorem State.setLevel_cmbnk : (s.setLevel lv r).cmbnk = s.cmbnk := rfl
@[simp] theorem State.setLevel_run : (s.setLevel lv r).run = s.run := rfl
@[simp] theorem State.setLevel_mem : (s.setLevel lv r).mem = s.mem := rfl
@[simp] theorem State.setLevel_pt : (s.setLevel lv r).pt = s.pt := rfl
@[simp] theorem State.setLevel_params : (s.setLevel lv r).params = s.params := rfl
@[simp] theorem State.setLevel_draws : (s.setLevel lv r).draws = s.draws := rfl
@[simp] theorem State.setLevel_inbox : (s.setLevel lv r).inbox = s.inbox := rfl
@[simp] theorem State.setLevel_outbox : (s.setLevel lv r).outbox = s.outbox := rfl
@[simp] theorem State.setLevel_pcrOf (k : Level) : (s.setLevel lv r).pcrOf k = s.pcrOf k := rfl

end

/-! ## setCur -/

section

variable (s : State) (r : RegSet)

@[simp] theorem State.setCur_regs : (s.setCur r).regs = s.regs.set s.pil.toNat r s.pil.isLt := rfl
@[simp] theorem State.setCur_pcr : (s.setCur r).pcr = s.pcr := rfl
@[simp] theorem State.setCur_pil : (s.setCur r).pil = s.pil := rfl
@[simp] theorem State.setCur_ioni : (s.setCur r).ioni = s.ioni := rfl
@[simp] theorem State.setCur_poni : (s.setCur r).poni = s.poni := rfl
@[simp] theorem State.setCur_sexi : (s.setCur r).sexi = s.sexi := rfl
@[simp] theorem State.setCur_pid : (s.setCur r).pid = s.pid := rfl
@[simp] theorem State.setCur_pie : (s.setCur r).pie = s.pie := rfl
@[simp] theorem State.setCur_iic : (s.setCur r).iic = s.iic := rfl
@[simp] theorem State.setCur_iie : (s.setCur r).iie = s.iie := rfl
@[simp] theorem State.setCur_pvl : (s.setCur r).pvl = s.pvl := rfl
@[simp] theorem State.setCur_stbnk : (s.setCur r).stbnk = s.stbnk := rfl
@[simp] theorem State.setCur_stsrt : (s.setCur r).stsrt = s.stsrt := rfl
@[simp] theorem State.setCur_cmbnk : (s.setCur r).cmbnk = s.cmbnk := rfl
@[simp] theorem State.setCur_run : (s.setCur r).run = s.run := rfl
@[simp] theorem State.setCur_mem : (s.setCur r).mem = s.mem := rfl
@[simp] theorem State.setCur_pt : (s.setCur r).pt = s.pt := rfl
@[simp] theorem State.setCur_params : (s.setCur r).params = s.params := rfl
@[simp] theorem State.setCur_draws : (s.setCur r).draws = s.draws := rfl
@[simp] theorem State.setCur_inbox : (s.setCur r).inbox = s.inbox := rfl
@[simp] theorem State.setCur_outbox : (s.setCur r).outbox = s.outbox := rfl
@[simp] theorem State.setCur_pcrOf (k : Level) : (s.setCur r).pcrOf k = s.pcrOf k := rfl

end

/-! ## setPcr -/

section

variable (s : State) (lv : Level) (v : Word)

@[simp] theorem State.setPcr_regs : (s.setPcr lv v).regs = s.regs := rfl
@[simp] theorem State.setPcr_pcr : (s.setPcr lv v).pcr = s.pcr.set lv.toNat v lv.isLt := rfl
@[simp] theorem State.setPcr_pil : (s.setPcr lv v).pil = s.pil := rfl
@[simp] theorem State.setPcr_ioni : (s.setPcr lv v).ioni = s.ioni := rfl
@[simp] theorem State.setPcr_poni : (s.setPcr lv v).poni = s.poni := rfl
@[simp] theorem State.setPcr_sexi : (s.setPcr lv v).sexi = s.sexi := rfl
@[simp] theorem State.setPcr_pid : (s.setPcr lv v).pid = s.pid := rfl
@[simp] theorem State.setPcr_pie : (s.setPcr lv v).pie = s.pie := rfl
@[simp] theorem State.setPcr_iic : (s.setPcr lv v).iic = s.iic := rfl
@[simp] theorem State.setPcr_iie : (s.setPcr lv v).iie = s.iie := rfl
@[simp] theorem State.setPcr_pvl : (s.setPcr lv v).pvl = s.pvl := rfl
@[simp] theorem State.setPcr_stbnk : (s.setPcr lv v).stbnk = s.stbnk := rfl
@[simp] theorem State.setPcr_stsrt : (s.setPcr lv v).stsrt = s.stsrt := rfl
@[simp] theorem State.setPcr_cmbnk : (s.setPcr lv v).cmbnk = s.cmbnk := rfl
@[simp] theorem State.setPcr_run : (s.setPcr lv v).run = s.run := rfl
@[simp] theorem State.setPcr_mem : (s.setPcr lv v).mem = s.mem := rfl
@[simp] theorem State.setPcr_pt : (s.setPcr lv v).pt = s.pt := rfl
@[simp] theorem State.setPcr_params : (s.setPcr lv v).params = s.params := rfl
@[simp] theorem State.setPcr_draws : (s.setPcr lv v).draws = s.draws := rfl
@[simp] theorem State.setPcr_inbox : (s.setPcr lv v).inbox = s.inbox := rfl
@[simp] theorem State.setPcr_outbox : (s.setPcr lv v).outbox = s.outbox := rfl
@[simp] theorem State.setPcr_level (k : Level) : (s.setPcr lv v).level k = s.level k := rfl
@[simp] theorem State.setPcr_cur : (s.setPcr lv v).cur = s.cur := rfl

end

/-! ## setPil -/

section

variable (s : State) (v : Level)

@[simp] theorem State.setPil_regs : (s.setPil v).regs = s.regs := rfl
@[simp] theorem State.setPil_pcr : (s.setPil v).pcr = s.pcr := rfl
@[simp] theorem State.setPil_pil : (s.setPil v).pil = v := rfl
@[simp] theorem State.setPil_ioni : (s.setPil v).ioni = s.ioni := rfl
@[simp] theorem State.setPil_poni : (s.setPil v).poni = s.poni := rfl
@[simp] theorem State.setPil_sexi : (s.setPil v).sexi = s.sexi := rfl
@[simp] theorem State.setPil_pid : (s.setPil v).pid = s.pid := rfl
@[simp] theorem State.setPil_pie : (s.setPil v).pie = s.pie := rfl
@[simp] theorem State.setPil_iic : (s.setPil v).iic = s.iic := rfl
@[simp] theorem State.setPil_iie : (s.setPil v).iie = s.iie := rfl
@[simp] theorem State.setPil_pvl : (s.setPil v).pvl = s.pvl := rfl
@[simp] theorem State.setPil_stbnk : (s.setPil v).stbnk = s.stbnk := rfl
@[simp] theorem State.setPil_stsrt : (s.setPil v).stsrt = s.stsrt := rfl
@[simp] theorem State.setPil_cmbnk : (s.setPil v).cmbnk = s.cmbnk := rfl
@[simp] theorem State.setPil_run : (s.setPil v).run = s.run := rfl
@[simp] theorem State.setPil_mem : (s.setPil v).mem = s.mem := rfl
@[simp] theorem State.setPil_pt : (s.setPil v).pt = s.pt := rfl
@[simp] theorem State.setPil_params : (s.setPil v).params = s.params := rfl
@[simp] theorem State.setPil_draws : (s.setPil v).draws = s.draws := rfl
@[simp] theorem State.setPil_inbox : (s.setPil v).inbox = s.inbox := rfl
@[simp] theorem State.setPil_outbox : (s.setPil v).outbox = s.outbox := rfl
@[simp] theorem State.setPil_level (k : Level) : (s.setPil v).level k = s.level k := rfl
@[simp] theorem State.setPil_pcrOf (k : Level) : (s.setPil v).pcrOf k = s.pcrOf k := rfl

end

/-! ## setIoni -/

section

variable (s : State) (v : Bool)

@[simp] theorem State.setIoni_regs : (s.setIoni v).regs = s.regs := rfl
@[simp] theorem State.setIoni_pcr : (s.setIoni v).pcr = s.pcr := rfl
@[simp] theorem State.setIoni_pil : (s.setIoni v).pil = s.pil := rfl
@[simp] theorem State.setIoni_ioni : (s.setIoni v).ioni = v := rfl
@[simp] theorem State.setIoni_poni : (s.setIoni v).poni = s.poni := rfl
@[simp] theorem State.setIoni_sexi : (s.setIoni v).sexi = s.sexi := rfl
@[simp] theorem State.setIoni_pid : (s.setIoni v).pid = s.pid := rfl
@[simp] theorem State.setIoni_pie : (s.setIoni v).pie = s.pie := rfl
@[simp] theorem State.setIoni_iic : (s.setIoni v).iic = s.iic := rfl
@[simp] theorem State.setIoni_iie : (s.setIoni v).iie = s.iie := rfl
@[simp] theorem State.setIoni_pvl : (s.setIoni v).pvl = s.pvl := rfl
@[simp] theorem State.setIoni_stbnk : (s.setIoni v).stbnk = s.stbnk := rfl
@[simp] theorem State.setIoni_stsrt : (s.setIoni v).stsrt = s.stsrt := rfl
@[simp] theorem State.setIoni_cmbnk : (s.setIoni v).cmbnk = s.cmbnk := rfl
@[simp] theorem State.setIoni_run : (s.setIoni v).run = s.run := rfl
@[simp] theorem State.setIoni_mem : (s.setIoni v).mem = s.mem := rfl
@[simp] theorem State.setIoni_pt : (s.setIoni v).pt = s.pt := rfl
@[simp] theorem State.setIoni_params : (s.setIoni v).params = s.params := rfl
@[simp] theorem State.setIoni_draws : (s.setIoni v).draws = s.draws := rfl
@[simp] theorem State.setIoni_inbox : (s.setIoni v).inbox = s.inbox := rfl
@[simp] theorem State.setIoni_outbox : (s.setIoni v).outbox = s.outbox := rfl
@[simp] theorem State.setIoni_level (k : Level) : (s.setIoni v).level k = s.level k := rfl
@[simp] theorem State.setIoni_cur : (s.setIoni v).cur = s.cur := rfl
@[simp] theorem State.setIoni_pcrOf (k : Level) : (s.setIoni v).pcrOf k = s.pcrOf k := rfl

end

/-! ## setPoni -/

section

variable (s : State) (v : Bool)

@[simp] theorem State.setPoni_regs : (s.setPoni v).regs = s.regs := rfl
@[simp] theorem State.setPoni_pcr : (s.setPoni v).pcr = s.pcr := rfl
@[simp] theorem State.setPoni_pil : (s.setPoni v).pil = s.pil := rfl
@[simp] theorem State.setPoni_ioni : (s.setPoni v).ioni = s.ioni := rfl
@[simp] theorem State.setPoni_poni : (s.setPoni v).poni = v := rfl
@[simp] theorem State.setPoni_sexi : (s.setPoni v).sexi = s.sexi := rfl
@[simp] theorem State.setPoni_pid : (s.setPoni v).pid = s.pid := rfl
@[simp] theorem State.setPoni_pie : (s.setPoni v).pie = s.pie := rfl
@[simp] theorem State.setPoni_iic : (s.setPoni v).iic = s.iic := rfl
@[simp] theorem State.setPoni_iie : (s.setPoni v).iie = s.iie := rfl
@[simp] theorem State.setPoni_pvl : (s.setPoni v).pvl = s.pvl := rfl
@[simp] theorem State.setPoni_stbnk : (s.setPoni v).stbnk = s.stbnk := rfl
@[simp] theorem State.setPoni_stsrt : (s.setPoni v).stsrt = s.stsrt := rfl
@[simp] theorem State.setPoni_cmbnk : (s.setPoni v).cmbnk = s.cmbnk := rfl
@[simp] theorem State.setPoni_run : (s.setPoni v).run = s.run := rfl
@[simp] theorem State.setPoni_mem : (s.setPoni v).mem = s.mem := rfl
@[simp] theorem State.setPoni_pt : (s.setPoni v).pt = s.pt := rfl
@[simp] theorem State.setPoni_params : (s.setPoni v).params = s.params := rfl
@[simp] theorem State.setPoni_draws : (s.setPoni v).draws = s.draws := rfl
@[simp] theorem State.setPoni_inbox : (s.setPoni v).inbox = s.inbox := rfl
@[simp] theorem State.setPoni_outbox : (s.setPoni v).outbox = s.outbox := rfl
@[simp] theorem State.setPoni_level (k : Level) : (s.setPoni v).level k = s.level k := rfl
@[simp] theorem State.setPoni_cur : (s.setPoni v).cur = s.cur := rfl
@[simp] theorem State.setPoni_pcrOf (k : Level) : (s.setPoni v).pcrOf k = s.pcrOf k := rfl

end

/-! ## setSexi -/

section

variable (s : State) (v : Bool)

@[simp] theorem State.setSexi_regs : (s.setSexi v).regs = s.regs := rfl
@[simp] theorem State.setSexi_pcr : (s.setSexi v).pcr = s.pcr := rfl
@[simp] theorem State.setSexi_pil : (s.setSexi v).pil = s.pil := rfl
@[simp] theorem State.setSexi_ioni : (s.setSexi v).ioni = s.ioni := rfl
@[simp] theorem State.setSexi_poni : (s.setSexi v).poni = s.poni := rfl
@[simp] theorem State.setSexi_sexi : (s.setSexi v).sexi = v := rfl
@[simp] theorem State.setSexi_pid : (s.setSexi v).pid = s.pid := rfl
@[simp] theorem State.setSexi_pie : (s.setSexi v).pie = s.pie := rfl
@[simp] theorem State.setSexi_iic : (s.setSexi v).iic = s.iic := rfl
@[simp] theorem State.setSexi_iie : (s.setSexi v).iie = s.iie := rfl
@[simp] theorem State.setSexi_pvl : (s.setSexi v).pvl = s.pvl := rfl
@[simp] theorem State.setSexi_stbnk : (s.setSexi v).stbnk = s.stbnk := rfl
@[simp] theorem State.setSexi_stsrt : (s.setSexi v).stsrt = s.stsrt := rfl
@[simp] theorem State.setSexi_cmbnk : (s.setSexi v).cmbnk = s.cmbnk := rfl
@[simp] theorem State.setSexi_run : (s.setSexi v).run = s.run := rfl
@[simp] theorem State.setSexi_mem : (s.setSexi v).mem = s.mem := rfl
@[simp] theorem State.setSexi_pt : (s.setSexi v).pt = s.pt := rfl
@[simp] theorem State.setSexi_params : (s.setSexi v).params = s.params := rfl
@[simp] theorem State.setSexi_draws : (s.setSexi v).draws = s.draws := rfl
@[simp] theorem State.setSexi_inbox : (s.setSexi v).inbox = s.inbox := rfl
@[simp] theorem State.setSexi_outbox : (s.setSexi v).outbox = s.outbox := rfl
@[simp] theorem State.setSexi_level (k : Level) : (s.setSexi v).level k = s.level k := rfl
@[simp] theorem State.setSexi_cur : (s.setSexi v).cur = s.cur := rfl
@[simp] theorem State.setSexi_pcrOf (k : Level) : (s.setSexi v).pcrOf k = s.pcrOf k := rfl

end

/-! ## setPid -/

section

variable (s : State) (v : Word)

@[simp] theorem State.setPid_regs : (s.setPid v).regs = s.regs := rfl
@[simp] theorem State.setPid_pcr : (s.setPid v).pcr = s.pcr := rfl
@[simp] theorem State.setPid_pil : (s.setPid v).pil = s.pil := rfl
@[simp] theorem State.setPid_ioni : (s.setPid v).ioni = s.ioni := rfl
@[simp] theorem State.setPid_poni : (s.setPid v).poni = s.poni := rfl
@[simp] theorem State.setPid_sexi : (s.setPid v).sexi = s.sexi := rfl
@[simp] theorem State.setPid_pid : (s.setPid v).pid = v := rfl
@[simp] theorem State.setPid_pie : (s.setPid v).pie = s.pie := rfl
@[simp] theorem State.setPid_iic : (s.setPid v).iic = s.iic := rfl
@[simp] theorem State.setPid_iie : (s.setPid v).iie = s.iie := rfl
@[simp] theorem State.setPid_pvl : (s.setPid v).pvl = s.pvl := rfl
@[simp] theorem State.setPid_stbnk : (s.setPid v).stbnk = s.stbnk := rfl
@[simp] theorem State.setPid_stsrt : (s.setPid v).stsrt = s.stsrt := rfl
@[simp] theorem State.setPid_cmbnk : (s.setPid v).cmbnk = s.cmbnk := rfl
@[simp] theorem State.setPid_run : (s.setPid v).run = s.run := rfl
@[simp] theorem State.setPid_mem : (s.setPid v).mem = s.mem := rfl
@[simp] theorem State.setPid_pt : (s.setPid v).pt = s.pt := rfl
@[simp] theorem State.setPid_params : (s.setPid v).params = s.params := rfl
@[simp] theorem State.setPid_draws : (s.setPid v).draws = s.draws := rfl
@[simp] theorem State.setPid_inbox : (s.setPid v).inbox = s.inbox := rfl
@[simp] theorem State.setPid_outbox : (s.setPid v).outbox = s.outbox := rfl
@[simp] theorem State.setPid_level (k : Level) : (s.setPid v).level k = s.level k := rfl
@[simp] theorem State.setPid_cur : (s.setPid v).cur = s.cur := rfl
@[simp] theorem State.setPid_pcrOf (k : Level) : (s.setPid v).pcrOf k = s.pcrOf k := rfl

end

/-! ## setPie -/

section

variable (s : State) (v : Word)

@[simp] theorem State.setPie_regs : (s.setPie v).regs = s.regs := rfl
@[simp] theorem State.setPie_pcr : (s.setPie v).pcr = s.pcr := rfl
@[simp] theorem State.setPie_pil : (s.setPie v).pil = s.pil := rfl
@[simp] theorem State.setPie_ioni : (s.setPie v).ioni = s.ioni := rfl
@[simp] theorem State.setPie_poni : (s.setPie v).poni = s.poni := rfl
@[simp] theorem State.setPie_sexi : (s.setPie v).sexi = s.sexi := rfl
@[simp] theorem State.setPie_pid : (s.setPie v).pid = s.pid := rfl
@[simp] theorem State.setPie_pie : (s.setPie v).pie = v := rfl
@[simp] theorem State.setPie_iic : (s.setPie v).iic = s.iic := rfl
@[simp] theorem State.setPie_iie : (s.setPie v).iie = s.iie := rfl
@[simp] theorem State.setPie_pvl : (s.setPie v).pvl = s.pvl := rfl
@[simp] theorem State.setPie_stbnk : (s.setPie v).stbnk = s.stbnk := rfl
@[simp] theorem State.setPie_stsrt : (s.setPie v).stsrt = s.stsrt := rfl
@[simp] theorem State.setPie_cmbnk : (s.setPie v).cmbnk = s.cmbnk := rfl
@[simp] theorem State.setPie_run : (s.setPie v).run = s.run := rfl
@[simp] theorem State.setPie_mem : (s.setPie v).mem = s.mem := rfl
@[simp] theorem State.setPie_pt : (s.setPie v).pt = s.pt := rfl
@[simp] theorem State.setPie_params : (s.setPie v).params = s.params := rfl
@[simp] theorem State.setPie_draws : (s.setPie v).draws = s.draws := rfl
@[simp] theorem State.setPie_inbox : (s.setPie v).inbox = s.inbox := rfl
@[simp] theorem State.setPie_outbox : (s.setPie v).outbox = s.outbox := rfl
@[simp] theorem State.setPie_level (k : Level) : (s.setPie v).level k = s.level k := rfl
@[simp] theorem State.setPie_cur : (s.setPie v).cur = s.cur := rfl
@[simp] theorem State.setPie_pcrOf (k : Level) : (s.setPie v).pcrOf k = s.pcrOf k := rfl

end

/-! ## setIic -/

section

variable (s : State) (v : BitVec 4)

@[simp] theorem State.setIic_regs : (s.setIic v).regs = s.regs := rfl
@[simp] theorem State.setIic_pcr : (s.setIic v).pcr = s.pcr := rfl
@[simp] theorem State.setIic_pil : (s.setIic v).pil = s.pil := rfl
@[simp] theorem State.setIic_ioni : (s.setIic v).ioni = s.ioni := rfl
@[simp] theorem State.setIic_poni : (s.setIic v).poni = s.poni := rfl
@[simp] theorem State.setIic_sexi : (s.setIic v).sexi = s.sexi := rfl
@[simp] theorem State.setIic_pid : (s.setIic v).pid = s.pid := rfl
@[simp] theorem State.setIic_pie : (s.setIic v).pie = s.pie := rfl
@[simp] theorem State.setIic_iic : (s.setIic v).iic = v := rfl
@[simp] theorem State.setIic_iie : (s.setIic v).iie = s.iie := rfl
@[simp] theorem State.setIic_pvl : (s.setIic v).pvl = s.pvl := rfl
@[simp] theorem State.setIic_stbnk : (s.setIic v).stbnk = s.stbnk := rfl
@[simp] theorem State.setIic_stsrt : (s.setIic v).stsrt = s.stsrt := rfl
@[simp] theorem State.setIic_cmbnk : (s.setIic v).cmbnk = s.cmbnk := rfl
@[simp] theorem State.setIic_run : (s.setIic v).run = s.run := rfl
@[simp] theorem State.setIic_mem : (s.setIic v).mem = s.mem := rfl
@[simp] theorem State.setIic_pt : (s.setIic v).pt = s.pt := rfl
@[simp] theorem State.setIic_params : (s.setIic v).params = s.params := rfl
@[simp] theorem State.setIic_draws : (s.setIic v).draws = s.draws := rfl
@[simp] theorem State.setIic_inbox : (s.setIic v).inbox = s.inbox := rfl
@[simp] theorem State.setIic_outbox : (s.setIic v).outbox = s.outbox := rfl
@[simp] theorem State.setIic_level (k : Level) : (s.setIic v).level k = s.level k := rfl
@[simp] theorem State.setIic_cur : (s.setIic v).cur = s.cur := rfl
@[simp] theorem State.setIic_pcrOf (k : Level) : (s.setIic v).pcrOf k = s.pcrOf k := rfl

end

/-! ## setIie -/

section

variable (s : State) (v : Word)

@[simp] theorem State.setIie_regs : (s.setIie v).regs = s.regs := rfl
@[simp] theorem State.setIie_pcr : (s.setIie v).pcr = s.pcr := rfl
@[simp] theorem State.setIie_pil : (s.setIie v).pil = s.pil := rfl
@[simp] theorem State.setIie_ioni : (s.setIie v).ioni = s.ioni := rfl
@[simp] theorem State.setIie_poni : (s.setIie v).poni = s.poni := rfl
@[simp] theorem State.setIie_sexi : (s.setIie v).sexi = s.sexi := rfl
@[simp] theorem State.setIie_pid : (s.setIie v).pid = s.pid := rfl
@[simp] theorem State.setIie_pie : (s.setIie v).pie = s.pie := rfl
@[simp] theorem State.setIie_iic : (s.setIie v).iic = s.iic := rfl
@[simp] theorem State.setIie_iie : (s.setIie v).iie = v := rfl
@[simp] theorem State.setIie_pvl : (s.setIie v).pvl = s.pvl := rfl
@[simp] theorem State.setIie_stbnk : (s.setIie v).stbnk = s.stbnk := rfl
@[simp] theorem State.setIie_stsrt : (s.setIie v).stsrt = s.stsrt := rfl
@[simp] theorem State.setIie_cmbnk : (s.setIie v).cmbnk = s.cmbnk := rfl
@[simp] theorem State.setIie_run : (s.setIie v).run = s.run := rfl
@[simp] theorem State.setIie_mem : (s.setIie v).mem = s.mem := rfl
@[simp] theorem State.setIie_pt : (s.setIie v).pt = s.pt := rfl
@[simp] theorem State.setIie_params : (s.setIie v).params = s.params := rfl
@[simp] theorem State.setIie_draws : (s.setIie v).draws = s.draws := rfl
@[simp] theorem State.setIie_inbox : (s.setIie v).inbox = s.inbox := rfl
@[simp] theorem State.setIie_outbox : (s.setIie v).outbox = s.outbox := rfl
@[simp] theorem State.setIie_level (k : Level) : (s.setIie v).level k = s.level k := rfl
@[simp] theorem State.setIie_cur : (s.setIie v).cur = s.cur := rfl
@[simp] theorem State.setIie_pcrOf (k : Level) : (s.setIie v).pcrOf k = s.pcrOf k := rfl

end

/-! ## setPvl -/

section

variable (s : State) (v : Level)

@[simp] theorem State.setPvl_regs : (s.setPvl v).regs = s.regs := rfl
@[simp] theorem State.setPvl_pcr : (s.setPvl v).pcr = s.pcr := rfl
@[simp] theorem State.setPvl_pil : (s.setPvl v).pil = s.pil := rfl
@[simp] theorem State.setPvl_ioni : (s.setPvl v).ioni = s.ioni := rfl
@[simp] theorem State.setPvl_poni : (s.setPvl v).poni = s.poni := rfl
@[simp] theorem State.setPvl_sexi : (s.setPvl v).sexi = s.sexi := rfl
@[simp] theorem State.setPvl_pid : (s.setPvl v).pid = s.pid := rfl
@[simp] theorem State.setPvl_pie : (s.setPvl v).pie = s.pie := rfl
@[simp] theorem State.setPvl_iic : (s.setPvl v).iic = s.iic := rfl
@[simp] theorem State.setPvl_iie : (s.setPvl v).iie = s.iie := rfl
@[simp] theorem State.setPvl_pvl : (s.setPvl v).pvl = v := rfl
@[simp] theorem State.setPvl_stbnk : (s.setPvl v).stbnk = s.stbnk := rfl
@[simp] theorem State.setPvl_stsrt : (s.setPvl v).stsrt = s.stsrt := rfl
@[simp] theorem State.setPvl_cmbnk : (s.setPvl v).cmbnk = s.cmbnk := rfl
@[simp] theorem State.setPvl_run : (s.setPvl v).run = s.run := rfl
@[simp] theorem State.setPvl_mem : (s.setPvl v).mem = s.mem := rfl
@[simp] theorem State.setPvl_pt : (s.setPvl v).pt = s.pt := rfl
@[simp] theorem State.setPvl_params : (s.setPvl v).params = s.params := rfl
@[simp] theorem State.setPvl_draws : (s.setPvl v).draws = s.draws := rfl
@[simp] theorem State.setPvl_inbox : (s.setPvl v).inbox = s.inbox := rfl
@[simp] theorem State.setPvl_outbox : (s.setPvl v).outbox = s.outbox := rfl
@[simp] theorem State.setPvl_level (k : Level) : (s.setPvl v).level k = s.level k := rfl
@[simp] theorem State.setPvl_cur : (s.setPvl v).cur = s.cur := rfl
@[simp] theorem State.setPvl_pcrOf (k : Level) : (s.setPvl v).pcrOf k = s.pcrOf k := rfl

end

/-! ## setGlobals -/

section

variable (s : State) (a b c : Word)

@[simp] theorem State.setGlobals_regs : (s.setGlobals a b c).regs = s.regs := rfl
@[simp] theorem State.setGlobals_pcr : (s.setGlobals a b c).pcr = s.pcr := rfl
@[simp] theorem State.setGlobals_pil : (s.setGlobals a b c).pil = s.pil := rfl
@[simp] theorem State.setGlobals_ioni : (s.setGlobals a b c).ioni = s.ioni := rfl
@[simp] theorem State.setGlobals_poni : (s.setGlobals a b c).poni = s.poni := rfl
@[simp] theorem State.setGlobals_sexi : (s.setGlobals a b c).sexi = s.sexi := rfl
@[simp] theorem State.setGlobals_pid : (s.setGlobals a b c).pid = s.pid := rfl
@[simp] theorem State.setGlobals_pie : (s.setGlobals a b c).pie = s.pie := rfl
@[simp] theorem State.setGlobals_iic : (s.setGlobals a b c).iic = s.iic := rfl
@[simp] theorem State.setGlobals_iie : (s.setGlobals a b c).iie = s.iie := rfl
@[simp] theorem State.setGlobals_pvl : (s.setGlobals a b c).pvl = s.pvl := rfl
@[simp] theorem State.setGlobals_stbnk : (s.setGlobals a b c).stbnk = a := rfl
@[simp] theorem State.setGlobals_stsrt : (s.setGlobals a b c).stsrt = b := rfl
@[simp] theorem State.setGlobals_cmbnk : (s.setGlobals a b c).cmbnk = c := rfl
@[simp] theorem State.setGlobals_run : (s.setGlobals a b c).run = s.run := rfl
@[simp] theorem State.setGlobals_mem : (s.setGlobals a b c).mem = s.mem := rfl
@[simp] theorem State.setGlobals_pt : (s.setGlobals a b c).pt = s.pt := rfl
@[simp] theorem State.setGlobals_params : (s.setGlobals a b c).params = s.params := rfl
@[simp] theorem State.setGlobals_draws : (s.setGlobals a b c).draws = s.draws := rfl
@[simp] theorem State.setGlobals_inbox : (s.setGlobals a b c).inbox = s.inbox := rfl
@[simp] theorem State.setGlobals_outbox : (s.setGlobals a b c).outbox = s.outbox := rfl
@[simp] theorem State.setGlobals_level (k : Level) : (s.setGlobals a b c).level k = s.level k := rfl
@[simp] theorem State.setGlobals_cur : (s.setGlobals a b c).cur = s.cur := rfl
@[simp] theorem State.setGlobals_pcrOf (k : Level) : (s.setGlobals a b c).pcrOf k = s.pcrOf k := rfl

end

/-! ## setRun -/

section

variable (s : State) (v : Run)

@[simp] theorem State.setRun_regs : (s.setRun v).regs = s.regs := rfl
@[simp] theorem State.setRun_pcr : (s.setRun v).pcr = s.pcr := rfl
@[simp] theorem State.setRun_pil : (s.setRun v).pil = s.pil := rfl
@[simp] theorem State.setRun_ioni : (s.setRun v).ioni = s.ioni := rfl
@[simp] theorem State.setRun_poni : (s.setRun v).poni = s.poni := rfl
@[simp] theorem State.setRun_sexi : (s.setRun v).sexi = s.sexi := rfl
@[simp] theorem State.setRun_pid : (s.setRun v).pid = s.pid := rfl
@[simp] theorem State.setRun_pie : (s.setRun v).pie = s.pie := rfl
@[simp] theorem State.setRun_iic : (s.setRun v).iic = s.iic := rfl
@[simp] theorem State.setRun_iie : (s.setRun v).iie = s.iie := rfl
@[simp] theorem State.setRun_pvl : (s.setRun v).pvl = s.pvl := rfl
@[simp] theorem State.setRun_stbnk : (s.setRun v).stbnk = s.stbnk := rfl
@[simp] theorem State.setRun_stsrt : (s.setRun v).stsrt = s.stsrt := rfl
@[simp] theorem State.setRun_cmbnk : (s.setRun v).cmbnk = s.cmbnk := rfl
@[simp] theorem State.setRun_run : (s.setRun v).run = v := rfl
@[simp] theorem State.setRun_mem : (s.setRun v).mem = s.mem := rfl
@[simp] theorem State.setRun_pt : (s.setRun v).pt = s.pt := rfl
@[simp] theorem State.setRun_params : (s.setRun v).params = s.params := rfl
@[simp] theorem State.setRun_draws : (s.setRun v).draws = s.draws := rfl
@[simp] theorem State.setRun_inbox : (s.setRun v).inbox = s.inbox := rfl
@[simp] theorem State.setRun_outbox : (s.setRun v).outbox = s.outbox := rfl
@[simp] theorem State.setRun_level (k : Level) : (s.setRun v).level k = s.level k := rfl
@[simp] theorem State.setRun_cur : (s.setRun v).cur = s.cur := rfl
@[simp] theorem State.setRun_pcrOf (k : Level) : (s.setRun v).pcrOf k = s.pcrOf k := rfl

end

/-! ## setMem -/

section

variable (s : State) (v : Memory)

@[simp] theorem State.setMem_regs : (s.setMem v).regs = s.regs := rfl
@[simp] theorem State.setMem_pcr : (s.setMem v).pcr = s.pcr := rfl
@[simp] theorem State.setMem_pil : (s.setMem v).pil = s.pil := rfl
@[simp] theorem State.setMem_ioni : (s.setMem v).ioni = s.ioni := rfl
@[simp] theorem State.setMem_poni : (s.setMem v).poni = s.poni := rfl
@[simp] theorem State.setMem_sexi : (s.setMem v).sexi = s.sexi := rfl
@[simp] theorem State.setMem_pid : (s.setMem v).pid = s.pid := rfl
@[simp] theorem State.setMem_pie : (s.setMem v).pie = s.pie := rfl
@[simp] theorem State.setMem_iic : (s.setMem v).iic = s.iic := rfl
@[simp] theorem State.setMem_iie : (s.setMem v).iie = s.iie := rfl
@[simp] theorem State.setMem_pvl : (s.setMem v).pvl = s.pvl := rfl
@[simp] theorem State.setMem_stbnk : (s.setMem v).stbnk = s.stbnk := rfl
@[simp] theorem State.setMem_stsrt : (s.setMem v).stsrt = s.stsrt := rfl
@[simp] theorem State.setMem_cmbnk : (s.setMem v).cmbnk = s.cmbnk := rfl
@[simp] theorem State.setMem_run : (s.setMem v).run = s.run := rfl
@[simp] theorem State.setMem_mem : (s.setMem v).mem = v := rfl
@[simp] theorem State.setMem_pt : (s.setMem v).pt = s.pt := rfl
@[simp] theorem State.setMem_params : (s.setMem v).params = s.params := rfl
@[simp] theorem State.setMem_draws : (s.setMem v).draws = s.draws := rfl
@[simp] theorem State.setMem_inbox : (s.setMem v).inbox = s.inbox := rfl
@[simp] theorem State.setMem_outbox : (s.setMem v).outbox = s.outbox := rfl
@[simp] theorem State.setMem_level (k : Level) : (s.setMem v).level k = s.level k := rfl
@[simp] theorem State.setMem_cur : (s.setMem v).cur = s.cur := rfl
@[simp] theorem State.setMem_pcrOf (k : Level) : (s.setMem v).pcrOf k = s.pcrOf k := rfl

end

/-! ## setPt -/

section

variable (s : State) (v : Memory)

@[simp] theorem State.setPt_regs : (s.setPt v).regs = s.regs := rfl
@[simp] theorem State.setPt_pcr : (s.setPt v).pcr = s.pcr := rfl
@[simp] theorem State.setPt_pil : (s.setPt v).pil = s.pil := rfl
@[simp] theorem State.setPt_ioni : (s.setPt v).ioni = s.ioni := rfl
@[simp] theorem State.setPt_poni : (s.setPt v).poni = s.poni := rfl
@[simp] theorem State.setPt_sexi : (s.setPt v).sexi = s.sexi := rfl
@[simp] theorem State.setPt_pid : (s.setPt v).pid = s.pid := rfl
@[simp] theorem State.setPt_pie : (s.setPt v).pie = s.pie := rfl
@[simp] theorem State.setPt_iic : (s.setPt v).iic = s.iic := rfl
@[simp] theorem State.setPt_iie : (s.setPt v).iie = s.iie := rfl
@[simp] theorem State.setPt_pvl : (s.setPt v).pvl = s.pvl := rfl
@[simp] theorem State.setPt_stbnk : (s.setPt v).stbnk = s.stbnk := rfl
@[simp] theorem State.setPt_stsrt : (s.setPt v).stsrt = s.stsrt := rfl
@[simp] theorem State.setPt_cmbnk : (s.setPt v).cmbnk = s.cmbnk := rfl
@[simp] theorem State.setPt_run : (s.setPt v).run = s.run := rfl
@[simp] theorem State.setPt_mem : (s.setPt v).mem = s.mem := rfl
@[simp] theorem State.setPt_pt : (s.setPt v).pt = v := rfl
@[simp] theorem State.setPt_params : (s.setPt v).params = s.params := rfl
@[simp] theorem State.setPt_draws : (s.setPt v).draws = s.draws := rfl
@[simp] theorem State.setPt_inbox : (s.setPt v).inbox = s.inbox := rfl
@[simp] theorem State.setPt_outbox : (s.setPt v).outbox = s.outbox := rfl
@[simp] theorem State.setPt_level (k : Level) : (s.setPt v).level k = s.level k := rfl
@[simp] theorem State.setPt_cur : (s.setPt v).cur = s.cur := rfl
@[simp] theorem State.setPt_pcrOf (k : Level) : (s.setPt v).pcrOf k = s.pcrOf k := rfl

end

/-! ## setInbox -/

section

variable (s : State) (v : List (List HostEvent))

@[simp] theorem State.setInbox_regs : (s.setInbox v).regs = s.regs := rfl
@[simp] theorem State.setInbox_pcr : (s.setInbox v).pcr = s.pcr := rfl
@[simp] theorem State.setInbox_pil : (s.setInbox v).pil = s.pil := rfl
@[simp] theorem State.setInbox_ioni : (s.setInbox v).ioni = s.ioni := rfl
@[simp] theorem State.setInbox_poni : (s.setInbox v).poni = s.poni := rfl
@[simp] theorem State.setInbox_sexi : (s.setInbox v).sexi = s.sexi := rfl
@[simp] theorem State.setInbox_pid : (s.setInbox v).pid = s.pid := rfl
@[simp] theorem State.setInbox_pie : (s.setInbox v).pie = s.pie := rfl
@[simp] theorem State.setInbox_iic : (s.setInbox v).iic = s.iic := rfl
@[simp] theorem State.setInbox_iie : (s.setInbox v).iie = s.iie := rfl
@[simp] theorem State.setInbox_pvl : (s.setInbox v).pvl = s.pvl := rfl
@[simp] theorem State.setInbox_stbnk : (s.setInbox v).stbnk = s.stbnk := rfl
@[simp] theorem State.setInbox_stsrt : (s.setInbox v).stsrt = s.stsrt := rfl
@[simp] theorem State.setInbox_cmbnk : (s.setInbox v).cmbnk = s.cmbnk := rfl
@[simp] theorem State.setInbox_run : (s.setInbox v).run = s.run := rfl
@[simp] theorem State.setInbox_mem : (s.setInbox v).mem = s.mem := rfl
@[simp] theorem State.setInbox_pt : (s.setInbox v).pt = s.pt := rfl
@[simp] theorem State.setInbox_params : (s.setInbox v).params = s.params := rfl
@[simp] theorem State.setInbox_draws : (s.setInbox v).draws = s.draws := rfl
@[simp] theorem State.setInbox_inbox : (s.setInbox v).inbox = v := rfl
@[simp] theorem State.setInbox_outbox : (s.setInbox v).outbox = s.outbox := rfl
@[simp] theorem State.setInbox_level (k : Level) : (s.setInbox v).level k = s.level k := rfl
@[simp] theorem State.setInbox_cur : (s.setInbox v).cur = s.cur := rfl
@[simp] theorem State.setInbox_pcrOf (k : Level) : (s.setInbox v).pcrOf k = s.pcrOf k := rfl

end

/-! ## emit -/

section

variable (s : State) (o : HostOutput)

@[simp] theorem State.emit_regs : (s.emit o).regs = s.regs := rfl
@[simp] theorem State.emit_pcr : (s.emit o).pcr = s.pcr := rfl
@[simp] theorem State.emit_pil : (s.emit o).pil = s.pil := rfl
@[simp] theorem State.emit_ioni : (s.emit o).ioni = s.ioni := rfl
@[simp] theorem State.emit_poni : (s.emit o).poni = s.poni := rfl
@[simp] theorem State.emit_sexi : (s.emit o).sexi = s.sexi := rfl
@[simp] theorem State.emit_pid : (s.emit o).pid = s.pid := rfl
@[simp] theorem State.emit_pie : (s.emit o).pie = s.pie := rfl
@[simp] theorem State.emit_iic : (s.emit o).iic = s.iic := rfl
@[simp] theorem State.emit_iie : (s.emit o).iie = s.iie := rfl
@[simp] theorem State.emit_pvl : (s.emit o).pvl = s.pvl := rfl
@[simp] theorem State.emit_stbnk : (s.emit o).stbnk = s.stbnk := rfl
@[simp] theorem State.emit_stsrt : (s.emit o).stsrt = s.stsrt := rfl
@[simp] theorem State.emit_cmbnk : (s.emit o).cmbnk = s.cmbnk := rfl
@[simp] theorem State.emit_run : (s.emit o).run = s.run := rfl
@[simp] theorem State.emit_mem : (s.emit o).mem = s.mem := rfl
@[simp] theorem State.emit_pt : (s.emit o).pt = s.pt := rfl
@[simp] theorem State.emit_params : (s.emit o).params = s.params := rfl
@[simp] theorem State.emit_draws : (s.emit o).draws = s.draws := rfl
@[simp] theorem State.emit_inbox : (s.emit o).inbox = s.inbox := rfl
@[simp] theorem State.emit_outbox : (s.emit o).outbox = o :: s.outbox := rfl
@[simp] theorem State.emit_level (k : Level) : (s.emit o).level k = s.level k := rfl
@[simp] theorem State.emit_cur : (s.emit o).cur = s.cur := rfl
@[simp] theorem State.emit_pcrOf (k : Level) : (s.emit o).pcrOf k = s.pcrOf k := rfl

end

/-! ## drawn -/

section

variable (s : State) (n : Nat)

@[simp] theorem State.drawn_regs : (s.drawn n).regs = s.regs := rfl
@[simp] theorem State.drawn_pcr : (s.drawn n).pcr = s.pcr := rfl
@[simp] theorem State.drawn_pil : (s.drawn n).pil = s.pil := rfl
@[simp] theorem State.drawn_ioni : (s.drawn n).ioni = s.ioni := rfl
@[simp] theorem State.drawn_poni : (s.drawn n).poni = s.poni := rfl
@[simp] theorem State.drawn_sexi : (s.drawn n).sexi = s.sexi := rfl
@[simp] theorem State.drawn_pid : (s.drawn n).pid = s.pid := rfl
@[simp] theorem State.drawn_pie : (s.drawn n).pie = s.pie := rfl
@[simp] theorem State.drawn_iic : (s.drawn n).iic = s.iic := rfl
@[simp] theorem State.drawn_iie : (s.drawn n).iie = s.iie := rfl
@[simp] theorem State.drawn_pvl : (s.drawn n).pvl = s.pvl := rfl
@[simp] theorem State.drawn_stbnk : (s.drawn n).stbnk = s.stbnk := rfl
@[simp] theorem State.drawn_stsrt : (s.drawn n).stsrt = s.stsrt := rfl
@[simp] theorem State.drawn_cmbnk : (s.drawn n).cmbnk = s.cmbnk := rfl
@[simp] theorem State.drawn_run : (s.drawn n).run = s.run := rfl
@[simp] theorem State.drawn_mem : (s.drawn n).mem = s.mem := rfl
@[simp] theorem State.drawn_pt : (s.drawn n).pt = s.pt := rfl
@[simp] theorem State.drawn_params : (s.drawn n).params = s.params := rfl
@[simp] theorem State.drawn_draws : (s.drawn n).draws = s.draws + n := rfl
@[simp] theorem State.drawn_inbox : (s.drawn n).inbox = s.inbox := rfl
@[simp] theorem State.drawn_outbox : (s.drawn n).outbox = s.outbox := rfl
@[simp] theorem State.drawn_level (k : Level) : (s.drawn n).level k = s.level k := rfl
@[simp] theorem State.drawn_cur : (s.drawn n).cur = s.cur := rfl
@[simp] theorem State.drawn_pcrOf (k : Level) : (s.drawn n).pcrOf k = s.pcrOf k := rfl

end

/-! ## Register sets and paging control registers by level -/

theorem Level.toNat_ne {k lv : Level} (h : k ≠ lv) : lv.toNat ≠ k.toNat := fun e => h (BitVec.eq_of_toNat_eq e.symm)

@[simp] theorem State.setLevel_level_same (s : State) (lv : Level) (r : RegSet) : (s.setLevel lv r).level lv = r := by
  simp [State.level, State.setLevel]

@[simp] theorem State.setLevel_level_ne (s : State) {lv k : Level} (r : RegSet) (h : k ≠ lv) :
    (s.setLevel lv r).level k = s.level k := by
  simp [State.level, State.setLevel, Level.toNat_ne h]

theorem State.setLevel_level (s : State) (lv k : Level) (r : RegSet) :
    (s.setLevel lv r).level k = if k = lv then r else s.level k := by
  split
  · subst_vars; simp
  · simp [*]

@[simp] theorem State.setCur_cur (s : State) (r : RegSet) : (s.setCur r).cur = r := by
  simp [State.cur, State.setCur]

@[simp] theorem State.setCur_level_ne (s : State) {k : Level} (r : RegSet) (h : k ≠ s.pil) :
    (s.setCur r).level k = s.level k := by
  simp [State.setCur, h]

@[simp] theorem State.setCur_level_pil (s : State) (r : RegSet) : (s.setCur r).level s.pil = r := by
  simp [State.setCur]

theorem State.level_pil (s : State) : s.level s.pil = s.cur := rfl

@[simp] theorem State.setCur_setCur (s : State) (r q : RegSet) : (s.setCur r).setCur q = s.setCur q := by
  simp [State.setCur, State.setLevel]

@[simp] theorem State.setCur_self (s : State) : s.setCur s.cur = s := by
  simp [State.setCur, State.setLevel, State.cur, State.level]

@[simp] theorem State.setPcr_pcrOf_same (s : State) (lv : Level) (v : Word) : (s.setPcr lv v).pcrOf lv = v := by
  simp [State.pcrOf, State.setPcr]

@[simp] theorem State.setPcr_pcrOf_ne (s : State) {lv k : Level} (v : Word) (h : k ≠ lv) :
    (s.setPcr lv v).pcrOf k = s.pcrOf k := by
  simp [State.pcrOf, State.setPcr, Level.toNat_ne h]

end Sys2Proof.Machine
end

