-- ==== Sys2Proof/Laws/Results.lean ====
section
/-! SUPPORT. What the parts of an instruction can answer: `Res.bind`, `finish`, and taking an internal interrupt. -/

namespace Sys2Proof.Machine

open Sys2Proof Sys2Proof.Config

/-! ## bind -/

@[simp] theorem Res.bind_ok {α β : Type} (a : α) (s : State) (f : α → State → Res β) :
    (Res.ok a s).bind f = f a s := rfl

@[simp] theorem Res.bind_trap {α β : Type} (c : IntCode) (s : State) (f : α → State → Res β) :
    (Res.trap c s).bind f = .trap c s := rfl

@[simp] theorem Res.bind_stop {α β : Type} (x : Refusal) (f : α → State → Res β) : (Res.stop x).bind f = .stop x := rfl

theorem Res.bind_assoc {α β γ : Type} (r : Res α) (f : α → State → Res β) (g : β → State → Res γ) :
    (r.bind f).bind g = r.bind fun a s => (f a s).bind g := by
  cases r <;> rfl

theorem Res.bind_eq_ok {α β : Type} {r : Res α} {f : α → State → Res β} {b : β} {t : State} :
    r.bind f = .ok b t ↔ ∃ a s, r = .ok a s ∧ f a s = .ok b t := by
  cases r <;> simp

theorem Res.bind_eq_trap {α β : Type} {r : Res α} {f : α → State → Res β} {c : IntCode} {t : State} :
    r.bind f = .trap c t ↔ r = .trap c t ∨ ∃ a s, r = .ok a s ∧ f a s = .trap c t := by
  cases r <;> simp

theorem Res.bind_eq_stop {α β : Type} {r : Res α} {f : α → State → Res β} {x : Refusal} :
    r.bind f = .stop x ↔ r = .stop x ∨ ∃ a s, r = .ok a s ∧ f a s = .stop x := by
  cases r <;> simp

/-! ## A property of every state a part can leave -/

/-- The state a part leaves, when it answers or traps, has the property. -/
def Res.All {α : Type} (Q : State → Prop) : Res α → Prop
  | .ok _ s => Q s
  | .trap _ s => Q s
  | .stop _ => True

/-- `bind` keeps a property that both parts keep. -/
theorem Res.All.bind {α β : Type} {Q : State → Prop} {r : Res α} {f : α → State → Res β} (h : r.All Q)
    (k : ∀ a s, r = .ok a s → Q s → (f a s).All Q) : (r.bind f).All Q := by
  cases r with
  | ok a s => exact k a s rfl h
  | trap c s => exact h
  | stop x => trivial

theorem Res.All.mono {α : Type} {Q Q' : State → Prop} {r : Res α} (h : r.All Q) (k : ∀ s, Q s → Q' s) : r.All Q' := by
  cases r <;> first | exact k _ h | trivial

theorem privileged_entitled {s : State} (h : s.entitled = true) (body : Res Unit) : privileged s body = body := by
  simp [privileged, h]

theorem privileged_not {s : State} (h : s.entitled = false) (body : Res Unit) :
    privileged s body = .trap .privilegedInstruction s := by
  simp [privileged, h]

theorem privileged_all {Q : State → Prop} {s : State} {body : Res Unit} (hs : Q s) (h : s.entitled = true → body.All Q) :
    (privileged s body).All Q := by
  unfold privileged
  split
  · exact h ‹_›
  · exact hs

/-! ## Internal interrupts -/

section

variable (s : State) (c : IntCode)

@[simp] theorem State.request_regs : (s.request c).regs = s.regs := rfl
@[simp] theorem State.request_pcr : (s.request c).pcr = s.pcr := rfl
@[simp] theorem State.request_pil : (s.request c).pil = s.pil := rfl
@[simp] theorem State.request_ioni : (s.request c).ioni = s.ioni := rfl
@[simp] theorem State.request_poni : (s.request c).poni = s.poni := rfl
@[simp] theorem State.request_sexi : (s.request c).sexi = s.sexi := rfl
@[simp] theorem State.request_pid : (s.request c).pid = setBit s.pid 14 true := rfl
@[simp] theorem State.request_pie : (s.request c).pie = s.pie := rfl
@[simp] theorem State.request_iie : (s.request c).iie = s.iie := rfl
@[simp] theorem State.request_pvl : (s.request c).pvl = s.pil := rfl
@[simp] theorem State.request_stbnk : (s.request c).stbnk = s.stbnk := rfl
@[simp] theorem State.request_stsrt : (s.request c).stsrt = s.stsrt := rfl
@[simp] theorem State.request_cmbnk : (s.request c).cmbnk = s.cmbnk := rfl
@[simp] theorem State.request_run : (s.request c).run = s.run := rfl
@[simp] theorem State.request_mem : (s.request c).mem = s.mem := rfl
@[simp] theorem State.request_pt : (s.request c).pt = s.pt := rfl
@[simp] theorem State.request_params : (s.request c).params = s.params := rfl
@[simp] theorem State.request_inbox : (s.request c).inbox = s.inbox := rfl
@[simp] theorem State.request_outbox : (s.request c).outbox = s.outbox := rfl
@[simp] theorem State.request_level (k : Level) : (s.request c).level k = s.level k := rfl
@[simp] theorem State.request_cur : (s.request c).cur = s.cur := rfl

/-- IIC after a request: its own code or, with another code unread, possibly that one. -/
theorem State.request_iic :
    (s.request c).iic = s.intCode c ∨ (s.iic ≠ 0 ∧ (s.request c).iic = s.iic) := by
  simp only [State.request, State.drawn_iic, State.setPid_iic, State.setIic_iic, State.latchedCode]
  split
  · exact .inl rfl
  · split
    · exact .inr ⟨‹_›, rfl⟩
    · exact .inl rfl

/-- All a request changes (R712). -/
theorem State.request_requested : Requested c s (s.request c) where
  pvl := rfl
  iic := State.request_iic s c
  pid := rfl
  regs := rfl
  mem := rfl
  pt := rfl
  control := ⟨rfl, rfl, rfl, rfl, rfl, rfl, rfl, rfl, rfl, rfl, rfl, rfl, rfl⟩
  inbox := rfl

end

/-! ## finish -/

@[simp] theorem finish_trap (b s : State) (c : IntCode) : finish b (.trap c s) = takeTrap c s := rfl

@[simp] theorem finish_stop (b : State) (x : Refusal) : finish b (.stop x) = .refused x := rfl

theorem finish_ok (b s : State) : finish b (.ok () s) = .next (b.raiseErrorFlag s) := rfl

/-- No interrupt of the error flag when Z is not newly set. -/
theorem State.raiseErrorFlag_eq {b s : State} (h : s.errorFlag = true → b.errorFlag = true) :
    b.raiseErrorFlag s = s := by
  unfold State.raiseErrorFlag
  cases hb : b.errorFlag <;> cases hs : s.errorFlag <;> simp_all

/-- An instruction that leaves the flags of the running level answers its own state. -/
theorem finish_ok_of_sts {b s : State} (h : s.cur.sts = b.cur.sts) : finish b (.ok () s) = .next s := by
  rw [finish_ok, State.raiseErrorFlag_eq]
  simp [State.errorFlag, h]

theorem finish_ok_cur {b s : State} {r : RegSet} (h : r.sts = b.cur.sts) :
    finish b (.ok () (s.setCur r)) = .next (s.setCur r) :=
  finish_ok_of_sts (by rw [State.setCur_cur, h])

/-- An instruction that leaves Z of the running level answers its own state. -/
theorem finish_ok_z {b s : State} {r : RegSet} (h : r.sts.getLsbD 3 = b.cur.sts.getLsbD 3) :
    finish b (.ok () (s.setCur r)) = .next (s.setCur r) := by
  rw [finish_ok, State.raiseErrorFlag_eq]
  unfold State.errorFlag
  rw [State.setCur_cur, h]
  exact id

/-- All that the after-completion request of Z can do. -/
theorem State.raiseErrorFlag_cases (b s : State) :
    b.raiseErrorFlag s = s ∨ b.raiseErrorFlag s = s.request .errorFlag := by
  unfold State.raiseErrorFlag State.requestIfEnabled
  split
  · split <;> simp
  · simp

/-- All a next state of `finish` can be. -/
theorem finish_next {b t : State} {r : Res Unit} (h : finish b r = .next t) :
    (∃ s, r = .ok () s ∧ t = b.raiseErrorFlag s) ∨
    (∃ c s, r = .trap c s ∧ s.faultTakeable c = true ∧ t = s.request c) := by
  cases r with
  | ok u s => exact .inl ⟨s, rfl, by simpa [finish] using h.symm⟩
  | trap c s =>
    simp only [finish_trap, takeTrap] at h
    split at h
    · exact .inr ⟨c, s, rfl, ‹_›, by simpa using h.symm⟩
    · cases h
  | stop x => cases h

/-- A property that every state an instruction's parts leave has, and that a request keeps, its next state has. -/
theorem finish_all {Q : State → Prop} {b t : State} {r : Res Unit} (h : finish b r = .next t) (hr : r.All Q)
    (hq : ∀ c s, Q s → Q (s.request c)) : Q t := by
  rcases finish_next h with ⟨s, rfl, rfl⟩ | ⟨c, s, rfl, -, rfl⟩
  · rcases State.raiseErrorFlag_cases b s with e | e <;> rw [e]
    · exact hr
    · exact hq _ _ hr
  · exact hq _ _ hr

end Sys2Proof.Machine
end

