-- ==== Sys2Proof/Laws/Access.lean ====
section
/-! SUPPORT. Where accesses go and what they change: places, translated accesses, memory with management off. -/

namespace Sys2Proof.Machine

open Sys2Proof Sys2Proof.Config

/-! ## One bit replaced -/

theorem getLsbD_setBit {w : Nat} (v : BitVec w) (n : Nat) (b : Bool) (i : Nat) :
    (setBit v n b).getLsbD i = if i = n ∧ i < w then b else v.getLsbD i := by
  unfold setBit
  cases b <;> simp only [if_true, Bool.false_eq_true, if_false, BitVec.getLsbD_or, BitVec.getLsbD_and,
    BitVec.getLsbD_not, BitVec.getLsbD_twoPow]
  · by_cases h : i < w
    · by_cases e : n = i
      · subst e; simp [h]
      · simp [e, Ne.symm e, h]
    · simp [h, BitVec.getLsbD_of_ge v i (by omega)]
  · by_cases e : n = i
    · subst e
      by_cases h : n < w <;> simp [h]
    · simp [e, Ne.symm e]

@[simp] theorem setBit_or {w : Nat} (v : BitVec w) (n : Nat) : setBit v n true = v ||| BitVec.twoPow w n := rfl

/-! ## Places -/

section

variable (s : State) (v : Word) (p : TransTarget)

@[simp] theorem State.writePlace_regs : (s.writePlace v p).regs = s.regs := by cases p <;> rfl
@[simp] theorem State.writePlace_pcr : (s.writePlace v p).pcr = s.pcr := by cases p <;> rfl
@[simp] theorem State.writePlace_pil : (s.writePlace v p).pil = s.pil := by cases p <;> rfl
@[simp] theorem State.writePlace_ioni : (s.writePlace v p).ioni = s.ioni := by cases p <;> rfl
@[simp] theorem State.writePlace_poni : (s.writePlace v p).poni = s.poni := by cases p <;> rfl
@[simp] theorem State.writePlace_sexi : (s.writePlace v p).sexi = s.sexi := by cases p <;> rfl
@[simp] theorem State.writePlace_pid : (s.writePlace v p).pid = s.pid := by cases p <;> rfl
@[simp] theorem State.writePlace_pie : (s.writePlace v p).pie = s.pie := by cases p <;> rfl
@[simp] theorem State.writePlace_iic : (s.writePlace v p).iic = s.iic := by cases p <;> rfl
@[simp] theorem State.writePlace_iie : (s.writePlace v p).iie = s.iie := by cases p <;> rfl
@[simp] theorem State.writePlace_pvl : (s.writePlace v p).pvl = s.pvl := by cases p <;> rfl
@[simp] theorem State.writePlace_stbnk : (s.writePlace v p).stbnk = s.stbnk := by cases p <;> rfl
@[simp] theorem State.writePlace_stsrt : (s.writePlace v p).stsrt = s.stsrt := by cases p <;> rfl
@[simp] theorem State.writePlace_cmbnk : (s.writePlace v p).cmbnk = s.cmbnk := by cases p <;> rfl
@[simp] theorem State.writePlace_run : (s.writePlace v p).run = s.run := by cases p <;> rfl
@[simp] theorem State.writePlace_params : (s.writePlace v p).params = s.params := by cases p <;> rfl
@[simp] theorem State.writePlace_draws : (s.writePlace v p).draws = s.draws := by cases p <;> rfl
@[simp] theorem State.writePlace_inbox : (s.writePlace v p).inbox = s.inbox := by cases p <;> rfl
@[simp] theorem State.writePlace_outbox : (s.writePlace v p).outbox = s.outbox := by cases p <;> rfl
@[simp] theorem State.writePlace_level (k : Level) : (s.writePlace v p).level k = s.level k := by cases p <;> rfl
@[simp] theorem State.writePlace_cur : (s.writePlace v p).cur = s.cur := by cases p <;> rfl
@[simp] theorem State.writePlace_pcrOf (k : Level) : (s.writePlace v p).pcrOf k = s.pcrOf k := by cases p <;> rfl

end

/-- A word read after a word is written: the value at its place, every other word as before (R84, R97). -/
theorem State.readPlace_writePlace (s : State) (v : Word) (p q : TransTarget) :
    (s.writePlace v p).readPlace q = if q = p then v else s.readPlace q := by
  cases p <;> cases q <;> simp only [State.readPlace, State.writePlace, State.setMem_mem, State.setPt_mem,
    State.setMem_pt, State.setPt_pt, Memory.wordAt_writeWord, TransTarget.phys.injEq, TransTarget.table.injEq,
    reduceCtorEq, if_false, BitVec.toNat_inj]

/-- The bytes of a store after a word is written: the word's two bytes hold it, every other byte is as before (R81). -/
theorem State.byteOf_writePlace (s : State) (v : Word) (p : TransTarget) (c : Store × Nat) :
    (s.writePlace v p).byteOf c =
      if (cellsOf p)[0]? = some c then leftByte v else if (cellsOf p)[1]? = some c then rightByte v else s.byteOf c := by
  obtain ⟨k, n⟩ := c
  cases p <;> cases k <;>
    simp [State.byteOf, State.writePlace, cellsOf, Memory.byteAt_writeWord, eq_comm]

theorem State.byteOf_writePlace_ne (s : State) (v : Word) (p : TransTarget) {c : Store × Nat} (h : c ∉ cellsOf p) :
    (s.writePlace v p).byteOf c = s.byteOf c := by
  rw [State.byteOf_writePlace]
  cases p <;> simp_all [cellsOf, eq_comm]

/-! ## Marks and translated accesses -/

theorem OnlyMarks.refl (s : State) : OnlyMarks s s := ⟨rfl, fun _ _ _ _ => rfl, fun _ _ h => h⟩

theorem OnlyMarks.trans {s t u : State} (h : OnlyMarks s t) (k : OnlyMarks t u) : OnlyMarks s u where
  rest := by rw [k.rest, h.rest]; rfl
  others i n a b := (k.others i n a b).trans (h.others i n a b)
  kept i n a := k.kept i n (h.kept i n a)

theorem State.mark_onlyMarks (s : State) {n : Nat} (hn : n = 11 ∨ n = 12) (o : Option (BitVec 9)) :
    OnlyMarks s (s.mark n o) := by
  cases o with
  | none => exact OnlyMarks.refl s
  | some j =>
    refine ⟨rfl, fun i k a b => ?_, fun i k h => ?_⟩
    · simp only [State.mark, State.setPt_pt, Memory.wordAt_writeWord]
      split
      · subst_vars
        rw [getLsbD_setBit, if_neg (by omega)]
      · rfl
    · simp only [State.mark, State.setPt_pt, Memory.wordAt_writeWord]
      split
      · subst_vars
        rw [getLsbD_setBit]
        split <;> simp [h]
      · exact h

/-- An access that answers changes nothing but marks (R96). -/
theorem locate_ok {k : AccessKind} {t : TableTag} {a : Word} {s s' : State} {p : TransTarget}
    (h : locate k t a s = .ok p s') : OnlyMarks s s' := by
  unfold locate translated at h
  split at h
  · cases h; exact OnlyMarks.refl s
  · split at h
    · split at h
      · split at h
        · cases h
          exact (State.mark_onlyMarks s (.inl rfl) _).trans (State.mark_onlyMarks _ (.inr rfl) _)
        · cases h
      · cases h
      · cases h
    · split at h
      · cases h; exact OnlyMarks.refl s
      · cases h

/-- An access that answers goes to installed memory (R84). -/
theorem locate_installed {k : AccessKind} {t : TableTag} {a : Word} {s s' : State} {p : TransTarget}
    (h : locate k t a s = .ok p s') : s.installed p = true := by
  unfold locate translated at h
  split at h
  · cases h; rfl
  · split at h
    · split at h
      · split at h
        · cases h; assumption
        · cases h
      · cases h
      · cases h
    · split at h
      · cases h; assumption
      · cases h

/-- An access that faults has changed nothing. -/
theorem locate_trap {k : AccessKind} {t : TableTag} {a : Word} {s s' : State} {c : IntCode}
    (h : locate k t a s = .trap c s') : s' = s := by
  unfold locate translated at h
  split at h
  · cases h
  · split at h
    · split at h
      · split at h <;> cases h; rfl
      · cases h; rfl
      · cases h; rfl
    · split at h <;> cases h; rfl

theorem locate_ne_stop {k : AccessKind} {t : TableTag} {a : Word} {s : State} {x : Refusal} :
    locate k t a s ≠ .stop x := by
  unfold locate translated
  split
  · simp
  · split
    · split
      · split <;> simp
      · simp
      · simp
    · split <;> simp

section

variable {s t : State} (h : OnlyMarks s t)
include h

theorem OnlyMarks.regs : t.regs = s.regs := by rw [h.rest]; rfl
theorem OnlyMarks.pil : t.pil = s.pil := by rw [h.rest]; rfl
theorem OnlyMarks.cur : t.cur = s.cur := by rw [h.rest]; rfl
theorem OnlyMarks.level (k : Level) : t.level k = s.level k := by rw [h.rest]; rfl
theorem OnlyMarks.poni : t.poni = s.poni := by rw [h.rest]; rfl
theorem OnlyMarks.sexi : t.sexi = s.sexi := by rw [h.rest]; rfl
theorem OnlyMarks.ioni : t.ioni = s.ioni := by rw [h.rest]; rfl
theorem OnlyMarks.mem : t.mem = s.mem := by rw [h.rest]; rfl
theorem OnlyMarks.params : t.params = s.params := by rw [h.rest]; rfl
theorem OnlyMarks.draws : t.draws = s.draws := by rw [h.rest]; rfl
theorem OnlyMarks.inbox : t.inbox = s.inbox := by rw [h.rest]; rfl
theorem OnlyMarks.outbox : t.outbox = s.outbox := by rw [h.rest]; rfl
theorem OnlyMarks.stbnk : t.stbnk = s.stbnk := by rw [h.rest]; rfl
theorem OnlyMarks.cmbnk : t.cmbnk = s.cmbnk := by rw [h.rest]; rfl

theorem OnlyMarks.system : SameSystem s t := by
  rw [h.rest]; exact ⟨rfl, rfl, rfl, rfl, rfl, rfl, rfl, rfl, rfl, rfl, rfl, rfl, rfl, rfl, rfl⟩

theorem OnlyMarks.bytes : SameBytesButMarks s t := by
  refine ⟨fun n => by rw [h.mem], fun n i hn => ?_⟩
  have key : ∀ (m : Memory) (n i : Nat), i < 8 →
      (m.byteAt n).getLsbD i = (m.wordAt (n / 2)).getLsbD (if n % 2 = 0 then i + 8 else i) := by
    intro m n i hi
    simp only [Memory.wordAt, BitVec.getLsbD_append]
    rcases Nat.mod_two_eq_zero_or_one n with e | e
    · have : 2 * (n / 2) = n := by omega
      rw [if_pos e, if_neg (show ¬i + 8 < 8 by omega), this, Nat.add_sub_cancel]
    · have : 2 * (n / 2) + 1 = n := by omega
      rw [if_neg (show ¬n % 2 = 0 by omega), if_pos hi, this]
  by_cases hi : i < 8
  · rw [key _ _ _ hi, key _ _ _ hi]
    refine h.others _ _ ?_ ?_ <;> split <;> omega
  · rw [BitVec.getLsbD_of_ge _ _ (by omega), BitVec.getLsbD_of_ge _ _ (by omega)]

end

/-- What a part may leave: nothing but marks changed. -/
theorem memReadVia_ok {t : TableTag} {a v : Word} {s s' : State} (h : memReadVia t a s = .ok v s') : OnlyMarks s s' := by
  obtain ⟨p, s1, h1, h2⟩ := Res.bind_eq_ok.1 h
  cases h2
  exact locate_ok h1

theorem memRead_ok {a v : Word} {s s' : State} (h : memRead a s = .ok v s') : OnlyMarks s s' := memReadVia_ok h

theorem memReadVia_trap {t : TableTag} {a : Word} {s s' : State} {c : IntCode} (h : memReadVia t a s = .trap c s') :
    s' = s := by
  rcases Res.bind_eq_trap.1 h with h | ⟨p, s1, h1, h2⟩
  · exact locate_trap h
  · cases h2

theorem memRead_trap {a : Word} {s s' : State} {c : IntCode} (h : memRead a s = .trap c s') : s' = s :=
  memReadVia_trap h

/-- A write that answers: a place, marks, then the word there. -/
theorem memWriteVia_ok {t : TableTag} {a v : Word} {s s' : State} (h : memWriteVia t a v s = .ok () s') :
    ∃ p s1, locate .write t a s = .ok p s1 ∧ s' = s1.writePlace v p := by
  obtain ⟨p, s1, h1, h2⟩ := Res.bind_eq_ok.1 h
  cases h2
  exact ⟨p, s1, h1, rfl⟩

theorem memWrite_ok {a v : Word} {s s' : State} (h : memWrite a v s = .ok () s') :
    ∃ p s1, locate .write .untagged a s = .ok p s1 ∧ s' = s1.writePlace v p := memWriteVia_ok h

theorem memWriteVia_trap {t : TableTag} {a v : Word} {s s' : State} {c : IntCode}
    (h : memWriteVia t a v s = .trap c s') : s' = s := by
  rcases Res.bind_eq_trap.1 h with h | ⟨p, s1, h1, h2⟩
  · exact locate_trap h
  · cases h2

theorem memWrite_trap {a v : Word} {s s' : State} {c : IntCode} (h : memWrite a v s = .trap c s') : s' = s :=
  memWriteVia_trap h

theorem memWrite_of_locate {a v : Word} {s s' : State} {p : TransTarget}
    (h : locate .write .untagged a s = .ok p s') : memWrite a v s = .ok () (s'.writePlace v p) := by
  simp [memWrite, memWriteVia, h]

/-! ## Memory management off -/

theorem State.entitled_of_off {s : State} (h : s.poni = false) : s.entitled = true := by simp [State.entitled, h]

theorem State.Flat.entitled {s : State} (h : s.Flat) : s.entitled = true := State.entitled_of_off h.off

theorem State.Flat.congr {s t : State} (h : s.Flat) (a : t.poni = s.poni) (b : t.params = s.params) : t.Flat :=
  ⟨a.trans h.off, by rw [b]; exact h.installed⟩

@[simp] theorem State.flat_setCur (s : State) (r : RegSet) : (s.setCur r).Flat ↔ s.Flat :=
  ⟨fun h => ⟨h.off, h.installed⟩, fun h => ⟨h.off, h.installed⟩⟩

@[simp] theorem State.flat_writePlace (s : State) (v : Word) (p : TransTarget) : (s.writePlace v p).Flat ↔ s.Flat :=
  ⟨fun h => h.congr (by simp) (by simp), fun h => h.congr (by simp) (by simp)⟩

@[simp] theorem State.flat_drawn (s : State) (n : Nat) : (s.drawn n).Flat ↔ s.Flat :=
  ⟨fun h => ⟨h.off, h.installed⟩, fun h => ⟨h.off, h.installed⟩⟩

/-- With memory management off every access goes to its flat place (R90, R97). -/
theorem locate_flat {s : State} (h : s.Flat) (k : AccessKind) (t : TableTag) (a : Word) :
    locate k t a s = .ok (flatPlace a) s := by
  have hi : s.installed (.phys (a.setWidth 24)) = true := by
    have h1 := h.installed
    have h2 : a.toNat < 65536 := a.isLt
    simp only [State.installed, BitVec.toNat_setWidth, decide_eq_true_eq]
    omega
  unfold locate flatPlace
  rw [h.entitled, h.off, hi]
  cases inTableRange a <;> simp

theorem memReadVia_flat {s : State} (h : s.Flat) (t : TableTag) (a : Word) :
    memReadVia t a s = .ok (s.flatWord a) s := by
  simp [memReadVia, locate_flat h, State.flatWord]

@[simp] theorem memRead_flat {s : State} (h : s.Flat) (a : Word) : memRead a s = .ok (s.flatWord a) s :=
  memReadVia_flat h _ a

theorem memWriteVia_flat {s : State} (h : s.Flat) (t : TableTag) (a v : Word) :
    memWriteVia t a v s = .ok () (s.writePlace v (flatPlace a)) := by
  simp [memWriteVia, locate_flat h]

@[simp] theorem memWrite_flat {s : State} (h : s.Flat) (a v : Word) :
    memWrite a v s = .ok () (s.writePlace v (flatPlace a)) :=
  memWriteVia_flat h _ a v

/-- Different logical addresses have different places. -/
theorem flatPlace_inj {a b : Word} (h : flatPlace a = flatPlace b) : a = b := by
  unfold flatPlace at h
  cases ha : inTableRange a <;> cases hb : inTableRange b <;>
    simp only [ha, hb, if_true, Bool.false_eq_true, if_false, reduceCtorEq, TransTarget.phys.injEq,
      TransTarget.table.injEq] at h
  · have := congrArg BitVec.toNat h
    simp only [BitVec.toNat_setWidth] at this
    have h1 : a.toNat < 65536 := a.isLt
    have h2 : b.toNat < 65536 := b.isLt
    exact BitVec.eq_of_toNat_eq (by omega)
  · have := congrArg BitVec.toNat h
    simp only [tableIndex, BitVec.extractLsb'_toNat, Nat.shiftRight_zero] at this
    simp only [inTableRange, decide_eq_true_eq, BitVec.le_def] at ha hb
    have h1 : a.toNat < 65536 := a.isLt
    have h2 : b.toNat < 65536 := b.isLt
    have e : (0o177000#16).toNat = 65024 := rfl
    rw [e] at ha hb
    exact BitVec.eq_of_toNat_eq (by omega)

/-- A logical word read after a logical word is written, with memory management off. -/
theorem State.flatWord_writePlace (s : State) (v a b : Word) :
    (s.writePlace v (flatPlace a)).flatWord b = if b = a then v else s.flatWord b := by
  unfold State.flatWord
  rw [State.readPlace_writePlace]
  by_cases h : b = a
  · simp [h]
  · rw [if_neg h, if_neg fun e => h (flatPlace_inj e)]

@[simp] theorem State.flatWord_setCur (s : State) (r : RegSet) (a : Word) : (s.setCur r).flatWord a = s.flatWord a := by
  unfold State.flatWord
  cases flatPlace a <;> rfl

/-! ## Physical memory -/

theorem physRead_installed {b a : Word} {s : State} (h : s.installed (s.physPlace b a) = true) :
    physRead b a s = .ok (s.readPlace (s.physPlace b a)) s := by
  simp [physRead, h]

theorem physWrite_installed {b a v : Word} {s : State} (h : s.installed (s.physPlace b a) = true) :
    physWrite b a v s = .ok () (s.writePlace v (s.physPlace b a)) := by
  simp [physWrite, h]

theorem physRead_out {b a : Word} {s : State} (h : s.installed (s.physPlace b a) = false) :
    physRead b a s = .trap .memoryOutOfRange s := by
  simp [physRead, h]

theorem physWrite_out {b a v : Word} {s : State} (h : s.installed (s.physPlace b a) = false) :
    physWrite b a v s = .trap .memoryOutOfRange s := by
  simp [physWrite, h]

/-- All a physical read can answer. -/
theorem physRead_cases (b a : Word) (s : State) :
    physRead b a s = .ok (s.readPlace (s.physPlace b a)) s ∨ physRead b a s = .trap .memoryOutOfRange s := by
  unfold physRead; split <;> simp

/-- All a physical write can answer. -/
theorem physWrite_cases (b a v : Word) (s : State) :
    physWrite b a v s = .ok () (s.writePlace v (s.physPlace b a)) ∨
      physWrite b a v s = .trap .memoryOutOfRange s := by
  unfold physWrite; split <;> simp

end Sys2Proof.Machine
end

