-- ==== Sys2Proof/Laws/Registers.lean ====
section
/-! SUPPORT. What each named update of a register set leaves in each register. -/

namespace Sys2Proof.Machine

open Sys2Proof

/-! ## advance -/

section

variable (r : RegSet) 

@[simp] theorem RegSet.advance_sts : r.advance.sts = r.sts := rfl
@[simp] theorem RegSet.advance_d : r.advance.d = r.d := rfl
@[simp] theorem RegSet.advance_p : r.advance.p = r.p + 1 := rfl
@[simp] theorem RegSet.advance_b : r.advance.b = r.b := rfl
@[simp] theorem RegSet.advance_l : r.advance.l = r.l := rfl
@[simp] theorem RegSet.advance_a : r.advance.a = r.a := rfl
@[simp] theorem RegSet.advance_t : r.advance.t = r.t := rfl
@[simp] theorem RegSet.advance_x : r.advance.x = r.x := rfl

end

/-! ## skip -/

section

variable (r : RegSet) 

@[simp] theorem RegSet.skip_sts : r.skip.sts = r.sts := rfl
@[simp] theorem RegSet.skip_d : r.skip.d = r.d := rfl
@[simp] theorem RegSet.skip_p : r.skip.p = r.p + 2 := rfl
@[simp] theorem RegSet.skip_b : r.skip.b = r.b := rfl
@[simp] theorem RegSet.skip_l : r.skip.l = r.l := rfl
@[simp] theorem RegSet.skip_a : r.skip.a = r.a := rfl
@[simp] theorem RegSet.skip_t : r.skip.t = r.t := rfl
@[simp] theorem RegSet.skip_x : r.skip.x = r.x := rfl

end

/-! ## setK -/

section

variable (r : RegSet) (v : Bool)

@[simp] theorem RegSet.setK_sts : (r.setK v).sts = setBit r.sts 2 v := rfl
@[simp] theorem RegSet.setK_d : (r.setK v).d = r.d := rfl
@[simp] theorem RegSet.setK_p : (r.setK v).p = r.p := rfl
@[simp] theorem RegSet.setK_b : (r.setK v).b = r.b := rfl
@[simp] theorem RegSet.setK_l : (r.setK v).l = r.l := rfl
@[simp] theorem RegSet.setK_a : (r.setK v).a = r.a := rfl
@[simp] theorem RegSet.setK_t : (r.setK v).t = r.t := rfl
@[simp] theorem RegSet.setK_x : (r.setK v).x = r.x := rfl

end

/-! ## setM -/

section

variable (r : RegSet) (v : Bool)

@[simp] theorem RegSet.setM_sts : (r.setM v).sts = setBit r.sts 7 v := rfl
@[simp] theorem RegSet.setM_d : (r.setM v).d = r.d := rfl
@[simp] theorem RegSet.setM_p : (r.setM v).p = r.p := rfl
@[simp] theorem RegSet.setM_b : (r.setM v).b = r.b := rfl
@[simp] theorem RegSet.setM_l : (r.setM v).l = r.l := rfl
@[simp] theorem RegSet.setM_a : (r.setM v).a = r.a := rfl
@[simp] theorem RegSet.setM_t : (r.setM v).t = r.t := rfl
@[simp] theorem RegSet.setM_x : (r.setM v).x = r.x := rfl

end

/-! ## setAd -/

section

variable (r : RegSet) (v : BitVec 32)

@[simp] theorem RegSet.setAd_sts : (r.setAd v).sts = r.sts := rfl
@[simp] theorem RegSet.setAd_d : (r.setAd v).d = v.extractLsb' 0 16 := rfl
@[simp] theorem RegSet.setAd_p : (r.setAd v).p = r.p := rfl
@[simp] theorem RegSet.setAd_b : (r.setAd v).b = r.b := rfl
@[simp] theorem RegSet.setAd_l : (r.setAd v).l = r.l := rfl
@[simp] theorem RegSet.setAd_a : (r.setAd v).a = v.extractLsb' 16 16 := rfl
@[simp] theorem RegSet.setAd_t : (r.setAd v).t = r.t := rfl
@[simp] theorem RegSet.setAd_x : (r.setAd v).x = r.x := rfl

end

/-! ## setFa32 -/

section

variable (r : RegSet) (v : BitVec 32)

@[simp] theorem RegSet.setFa32_sts : (r.setFa32 v).sts = r.sts := rfl
@[simp] theorem RegSet.setFa32_d : (r.setFa32 v).d = v.extractLsb' 0 16 := rfl
@[simp] theorem RegSet.setFa32_p : (r.setFa32 v).p = r.p := rfl
@[simp] theorem RegSet.setFa32_b : (r.setFa32 v).b = r.b := rfl
@[simp] theorem RegSet.setFa32_l : (r.setFa32 v).l = r.l := rfl
@[simp] theorem RegSet.setFa32_a : (r.setFa32 v).a = v.extractLsb' 16 16 := rfl
@[simp] theorem RegSet.setFa32_t : (r.setFa32 v).t = r.t := rfl
@[simp] theorem RegSet.setFa32_x : (r.setFa32 v).x = r.x := rfl

end

/-! ## setFa48 -/

section

variable (r : RegSet) (v : BitVec 48)

@[simp] theorem RegSet.setFa48_sts : (r.setFa48 v).sts = r.sts := rfl
@[simp] theorem RegSet.setFa48_d : (r.setFa48 v).d = v.extractLsb' 0 16 := rfl
@[simp] theorem RegSet.setFa48_p : (r.setFa48 v).p = r.p := rfl
@[simp] theorem RegSet.setFa48_b : (r.setFa48 v).b = r.b := rfl
@[simp] theorem RegSet.setFa48_l : (r.setFa48 v).l = r.l := rfl
@[simp] theorem RegSet.setFa48_a : (r.setFa48 v).a = v.extractLsb' 16 16 := rfl
@[simp] theorem RegSet.setFa48_t : (r.setFa48 v).t = v.extractLsb' 32 16 := rfl
@[simp] theorem RegSet.setFa48_x : (r.setFa48 v).x = r.x := rfl

end

/-! ## signalError -/

section

variable (r : RegSet) (e : Bool)

@[simp] theorem RegSet.signalError_sts : (r.signalError e).sts = if e then setBit r.sts 3 true else r.sts := by
  cases e <;> rfl
@[simp] theorem RegSet.signalError_d : (r.signalError e).d = r.d := by cases e <;> rfl
@[simp] theorem RegSet.signalError_p : (r.signalError e).p = r.p := by cases e <;> rfl
@[simp] theorem RegSet.signalError_b : (r.signalError e).b = r.b := by cases e <;> rfl
@[simp] theorem RegSet.signalError_l : (r.signalError e).l = r.l := by cases e <;> rfl
@[simp] theorem RegSet.signalError_a : (r.signalError e).a = r.a := by cases e <;> rfl
@[simp] theorem RegSet.signalError_t : (r.signalError e).t = r.t := by cases e <;> rfl
@[simp] theorem RegSet.signalError_x : (r.signalError e).x = r.x := by cases e <;> rfl

end

/-! ## Registers by code -/

@[simp] theorem RegSet.get_set_same (r : RegSet) (c : RegCode) (v : Word) (h : c ≠ .zero) : (r.set c v).get c = v := by
  cases c <;> first | rfl | exact absurd rfl h

@[simp] theorem RegSet.get_set_ne (r : RegSet) {c k : RegCode} (v : Word) (h : k ≠ c) : (r.set c v).get k = r.get k := by
  cases c <;> cases k <;> first | rfl | exact absurd rfl h

@[simp] theorem RegSet.set_zero (r : RegSet) (v : Word) : r.set .zero v = r := rfl

@[simp] theorem RegSet.set_sts (r : RegSet) (c : RegCode) (v : Word) : (r.set c v).sts = r.sts := by cases c <;> rfl

/-- All `writeTo` can do: a jump for P, else the register and P + 1 (R38, R302, R303). -/
theorem RegSet.writeTo_cases (r : RegSet) (c : RegCode) (v : Word) :
    (c = .p ∧ r.writeTo c v = { r with p := v }) ∨
    (c = .zero ∧ r.writeTo c v = r.advance) ∨
    (c ≠ .p ∧ c ≠ .zero ∧ r.writeTo c v = (r.set c v).advance) := by
  cases c <;> simp [RegSet.writeTo]

@[simp] theorem RegSet.writeTo_sts (r : RegSet) (c : RegCode) (v : Word) : (r.writeTo c v).sts = r.sts := by
  cases c <;> rfl

theorem RegSet.writeTo_get_same (r : RegSet) (c : RegCode) (v : Word) (h : c ≠ .zero) : (r.writeTo c v).get c = v := by
  cases c <;> first | rfl | exact absurd rfl h

theorem RegSet.writeTo_get_ne (r : RegSet) {c k : RegCode} (v : Word) (h : k ≠ c) (hp : k ≠ .p) :
    (r.writeTo c v).get k = r.get k := by
  cases c <;> cases k <;> first | rfl | exact absurd rfl h | exact absurd rfl hp

/-- The next P is the value written, for P, and else P + 1 (R302). -/
theorem RegSet.writeTo_p (r : RegSet) (c : RegCode) (v : Word) :
    (r.writeTo c v).p = if c = .p then v else r.p + 1 := by
  cases c <;> rfl

@[simp] theorem RegSet.setAd_ad (r : RegSet) (v : BitVec 32) : (r.setAd v).ad = v := by
  simp only [RegSet.ad, RegSet.setAd]
  ext i hi
  grind

@[simp] theorem RegSet.setFa32_fa32 (r : RegSet) (v : BitVec 32) : (r.setFa32 v).fa32 = v := RegSet.setAd_ad r v

@[simp] theorem RegSet.setFa48_fa48 (r : RegSet) (v : BitVec 48) : (r.setFa48 v).fa48 = v := by
  simp only [RegSet.fa48, RegSet.setFa48]
  ext i hi
  grind

end Sys2Proof.Machine
end

