-- ==== Sys2Proof/Laws/Operands.lean ====
section
/-! SUPPORT. What forming an operand changes: nothing but marks. Bytes and byte positions. -/

namespace Sys2Proof.Machine

open Sys2Proof Sys2Proof.Config

theorem effAddr_ok {m : AddrMode} {a : Word} {s t : State} (h : effAddr m s = .ok a t) : OnlyMarks s t := by
  unfold effAddr at h
  split at h
  · obtain ⟨v, u, h1, h2⟩ := Res.bind_eq_ok.1 h
    cases h2
    exact memRead_ok h1
  · cases h
    exact OnlyMarks.refl s

theorem effAddr_trap {m : AddrMode} {c : IntCode} {s t : State} (h : effAddr m s = .trap c t) : t = s := by
  unfold effAddr at h
  split at h
  · rcases Res.bind_eq_trap.1 h with h | ⟨v, u, h1, h2⟩
    · exact memRead_trap h
    · cases h2
  · cases h

theorem operandWord_ok {m : AddrMode} {v : Word} {s t : State} (h : operandWord m s = .ok v t) : OnlyMarks s t := by
  obtain ⟨a, u, h1, h2⟩ := Res.bind_eq_ok.1 h
  exact (effAddr_ok h1).trans (memRead_ok h2)

@[simp] theorem State.readPlace_setCur (s : State) (r : RegSet) (p : TransTarget) :
    (s.setCur r).readPlace p = s.readPlace p := by
  cases p <;> rfl

@[simp] theorem State.byteOf_setCur (s : State) (r : RegSet) (c : Store × Nat) : (s.setCur r).byteOf c = s.byteOf c := by
  obtain ⟨k, n⟩ := c
  cases k <;> rfl

/-! ## Words in two and three parts -/

@[simp] theorem high_of_two (u v : Word) : (u ++ v).extractLsb' 16 16 = u := by ext i hi; grind
@[simp] theorem low_of_two (u v : Word) : (u ++ v).extractLsb' 0 16 = v := by ext i hi; grind
@[simp] theorem high_of_three (u v w : Word) : (u ++ v ++ w).extractLsb' 32 16 = u := by ext i hi; grind
@[simp] theorem middle_of_three (u v w : Word) : (u ++ v ++ w).extractLsb' 16 16 = v := by ext i hi; grind
@[simp] theorem low_of_three (u v w : Word) : (u ++ v ++ w).extractLsb' 0 16 = w := by ext i hi; grind

/-! ## Bytes -/

@[simp] theorem loadByte_storeByte (w : Word) (h : Bool) (v : Byte) : loadByte (storeByte w h v) h = v := by
  cases h <;> simp [loadByte, storeByte]

@[simp] theorem loadByte_storeByte_other (w : Word) (h : Bool) (v : Byte) :
    loadByte (storeByte w h v) (!h) = loadByte w (!h) := by
  cases h <;> simp [loadByte, storeByte]

/-- The cell of a byte position is one of the two of its word. -/
theorem flatCell_mem (p : BytePos) : flatCell p ∈ cellsOf (flatPlace p.addr) := by
  unfold flatCell
  cases flatPlace p.addr <;> cases p.half <;> simp [cellsOf]

/-- With memory management off a byte is read from its cell. -/
theorem readByte_flat {s : State} (h : s.Flat) (p : BytePos) : readByte p s = .ok (s.byteOf (flatCell p)) s := by
  obtain ⟨a, b⟩ := p
  simp only [readByte, memRead_flat h, Res.bind_ok, State.flatWord, flatCell, Res.ok.injEq, and_true]
  cases flatPlace a <;> cases b <;> simp [State.readPlace, Memory.wordAt, loadByte, cellsOf, State.byteOf]

/-- Different byte positions have different cells. -/
theorem flatCell_inj {p q : BytePos} (h : flatCell p = flatCell q) : p = q := by
  obtain ⟨a, b⟩ := p
  obtain ⟨c, d⟩ := q
  have hw : flatPlace a = flatPlace c ∧ b = d := by
    simp only [flatCell] at h
    cases ha : flatPlace a <;> cases hc : flatPlace c <;> cases b <;> cases d <;>
      simp [ha, hc, cellsOf] at h <;> simp_all <;> first | (apply BitVec.eq_of_toNat_eq; omega) | omega
  rw [flatPlace_inj hw.1, hw.2]

/-- With memory management off, a byte stored changes its own cell only. -/
theorem writeByteAt_flat {s : State} (h : s.Flat) (p : BytePos) (v : Byte) :
    ∃ t, writeByteAt p v s = .ok () t ∧ t = (s.setMem t.mem).setPt t.pt ∧
      ∀ c, t.byteOf c = if c = flatCell p then v else s.byteOf c := by
  refine ⟨_, by simp only [writeByteAt, memRead_flat h, Res.bind_ok, memWrite_flat h]; rfl, ?_, fun c => ?_⟩
  · cases flatPlace p.addr <;> rfl
  · rw [State.byteOf_writePlace]
    obtain ⟨a, b⟩ := p
    obtain ⟨k, n⟩ := c
    simp only [State.flatWord, flatCell]
    cases flatPlace a <;> cases b <;> cases k <;>
      simp [cellsOf, storeByte, State.readPlace, Memory.wordAt, State.byteOf] <;> grind

end Sys2Proof.Machine
end

