-- ==== Sys2Proof/Laws/Accesses.lean ====
section
/-! SUPPORT. A memory access does not look at the working registers but for STS: what it answers after a change of the
others is what it answers before, with the change made in the state it leaves. -/

namespace Sys2Proof.Machine

open Sys2Proof Sys2Proof.Config

/-- The same answer with another state. -/
def Res.mapState {α : Type} (g : State → State) : Res α → Res α
  | .ok a s => .ok a (g s)
  | .trap c s => .trap c (g s)
  | .stop x => .stop x

@[simp] theorem Res.mapState_ok {α : Type} (g : State → State) (a : α) (s : State) :
    (Res.ok a s).mapState g = .ok a (g s) := rfl

@[simp] theorem Res.mapState_trap {α : Type} (g : State → State) (c : IntCode) (s : State) :
    (Res.trap c s : Res α).mapState g = .trap c (g s) := rfl

/-- Changing the state before going on is going on and changing it after, where the continuation allows it. -/
theorem Res.mapState_bind {α β : Type} {g : State → State} {r : Res α} {f f' : α → State → Res β}
    (h : ∀ a s, r = .ok a s → f' a (g s) = (f a s).mapState g) :
    (r.mapState g).bind f' = (r.bind f).mapState g := by
  cases r with
  | ok a s => exact h a s rfl
  | trap c s => rfl
  | stop x => rfl

section

variable {s : State} {q : RegSet}

theorem State.transView_setCur (h : q.sts = s.cur.sts) : (s.setCur q).transView = s.transView := by
  simp [State.transView, State.setCur_cur, h]

theorem State.entitled_setCur (h : q.sts = s.cur.sts) : (s.setCur q).entitled = s.entitled := by
  simp [State.entitled, State.transView_setCur h]

@[simp] theorem State.physWidth_setCur (s : State) (q : RegSet) (p : TransTarget) :
    (s.setCur q).physWidth p = s.physWidth p := by cases p <;> rfl

@[simp] theorem State.installed_setCur (s : State) (q : RegSet) (p : TransTarget) :
    (s.setCur q).installed p = s.installed p := by cases p <;> rfl

theorem State.mark_setCur (s : State) (q : RegSet) (n : Nat) (o : Option (BitVec 9)) :
    (s.setCur q).mark n o = (s.mark n o).setCur q := by cases o <;> rfl

/-- Where an access goes does not depend on the working registers but for STS (R96). -/
theorem locate_setCur (h : q.sts = s.cur.sts) (k : AccessKind) (t : TableTag) (a : Word) :
    locate k t a (s.setCur q) = (locate k t a s).mapState (·.setCur q) := by
  have ht : (s.setCur q).tableTag t = s.tableTag t := by cases t <;> simp [State.tableTag, h]
  simp only [locate, translated, State.entitled_setCur h, State.transView_setCur h, ht, State.setCur_poni,
    State.setCur_params, State.physWidth_setCur, State.installed_setCur, State.mark_setCur]
  split
  · rfl
  · split
    · split
      · split <;> rfl
      · rfl
      · rfl
    · split <;> rfl

theorem memReadVia_setCur (h : q.sts = s.cur.sts) (t : TableTag) (a : Word) :
    memReadVia t a (s.setCur q) = (memReadVia t a s).mapState (·.setCur q) := by
  rw [memReadVia, locate_setCur h, memReadVia]
  exact Res.mapState_bind fun p u _ => by simp

theorem State.writePlace_setCur (s : State) (q : RegSet) (v : Word) (p : TransTarget) :
    (s.setCur q).writePlace v p = (s.writePlace v p).setCur q := by cases p <;> rfl

theorem memWriteVia_setCur (h : q.sts = s.cur.sts) (t : TableTag) (a v : Word) :
    memWriteVia t a v (s.setCur q) = (memWriteVia t a v s).mapState (·.setCur q) := by
  rw [memWriteVia, locate_setCur h, memWriteVia]
  exact Res.mapState_bind fun p u _ => by simp [State.writePlace_setCur]

theorem memRead_setCur (h : q.sts = s.cur.sts) (a : Word) :
    memRead a (s.setCur q) = (memRead a s).mapState (·.setCur q) := memReadVia_setCur h _ a

theorem memWrite_setCur (h : q.sts = s.cur.sts) (a v : Word) :
    memWrite a v (s.setCur q) = (memWrite a v s).mapState (·.setCur q) := memWriteVia_setCur h _ a v

theorem readByte_setCur (h : q.sts = s.cur.sts) (p : BytePos) :
    readByte p (s.setCur q) = (readByte p s).mapState (·.setCur q) := by
  rw [readByte, memRead_setCur h, readByte]
  exact Res.mapState_bind fun _ _ _ => rfl

theorem writeByteAt_setCur (h : q.sts = s.cur.sts) (p : BytePos) (v : Byte) :
    writeByteAt p v (s.setCur q) = (writeByteAt p v s).mapState (·.setCur q) := by
  rw [writeByteAt, memRead_setCur h, writeByteAt]
  exact Res.mapState_bind fun w u hw => memWrite_setCur (by rw [(memRead_ok hw).cur, h]) _ _
end

/-! ## What an access to one byte can do -/

theorem readByte_ok {p : BytePos} {b : Byte} {s t : State} (h : readByte p s = .ok b t) : OnlyMarks s t := by
  obtain ⟨w, u, h1, h2⟩ := Res.bind_eq_ok.1 h
  cases h2
  exact memRead_ok h1

theorem readByte_trap {p : BytePos} {c : IntCode} {s t : State} (h : readByte p s = .trap c t) : t = s := by
  rcases Res.bind_eq_trap.1 h with h | ⟨w, u, _, h2⟩
  · exact memRead_trap h
  · cases h2

/-- A byte stored: marks, a place, and the word there. -/
theorem writeByteAt_ok {p : BytePos} {v : Byte} {s t : State} (h : writeByteAt p v s = .ok () t) :
    ∃ w q u, OnlyMarks s u ∧ u.installed q = true ∧ t = u.writePlace (storeByte w p.half v) q := by
  obtain ⟨w, u, h1, h2⟩ := Res.bind_eq_ok.1 h
  obtain ⟨q, u', h3, rfl⟩ := memWrite_ok h2
  refine ⟨w, q, u', (memRead_ok h1).trans (locate_ok h3), ?_, rfl⟩
  have e : u'.installed q = u.installed q := by cases q <;> simp [State.installed, (locate_ok h3).params]
  rw [e]
  exact locate_installed h3

/-- A byte that cannot be stored: nothing but marks has changed. -/
theorem writeByteAt_trap {p : BytePos} {v : Byte} {c : IntCode} {s t : State} (h : writeByteAt p v s = .trap c t) :
    OnlyMarks s t := by
  rcases Res.bind_eq_trap.1 h with h | ⟨w, u, h1, h2⟩
  · rw [memRead_trap h]
    exact OnlyMarks.refl s
  · rw [memWrite_trap h2]
    exact memRead_ok h1

end Sys2Proof.Machine
end

