-- ==== Sys2Proof/Laws/Fields.lean ====
section
/-! SUPPORT. Fields of bytes with memory management off: reading one changes nothing, writing one changes its own cells,
and what was written is read back. -/

namespace Sys2Proof.Machine

open Sys2Proof Sys2Proof.Config

/-! ## Byte positions as numbers -/

theorem BytePos.next_number (p : BytePos) :
    2 * p.next.addr.toNat + p.next.half.toNat = (2 * p.addr.toNat + p.half.toNat + 1) % 131072 := by
  obtain ⟨a, h⟩ := p
  have := a.isLt
  cases h <;> simp [BytePos.next, BitVec.toNat_add] <;> omega

theorem BytePos.ext_number {p q : BytePos}
    (h : 2 * p.addr.toNat + p.half.toNat = 2 * q.addr.toNat + q.half.toNat) : p = q := by
  obtain ⟨a, x⟩ := p
  obtain ⟨b, y⟩ := q
  have hx : x.toNat < 2 := by cases x <;> decide
  have hy : y.toNat < 2 := by cases y <;> decide
  have e : a = b := BitVec.eq_of_toNat_eq (by simp only at h; omega)
  have f : x = y := by cases x <;> cases y <;> simp at h ⊢ <;> omega
  rw [e, f]

theorem positions_length (n : Nat) (p : BytePos) : (positions n p).length = n := by
  induction n generalizing p with
  | zero => rfl
  | succ n ih => simp [positions, ih]

theorem mem_positions {n : Nat} {p q : BytePos} (h : q ∈ positions n p) :
    ∃ k < n, 2 * q.addr.toNat + q.half.toNat = (2 * p.addr.toNat + p.half.toNat + k) % 131072 := by
  induction n generalizing p with
  | zero => cases h
  | succ n ih =>
    rcases List.mem_cons.1 h with rfl | h
    · refine ⟨0, by omega, ?_⟩
      have := q.addr.isLt
      have hq : q.half.toNat < 2 := by cases q.half <;> decide
      omega
    · obtain ⟨k, hk, e⟩ := ih h
      refine ⟨k + 1, by omega, ?_⟩
      rw [e, BytePos.next_number]
      omega

/-- A field of at most 2^17 bytes comes to no byte twice. -/
theorem positions_nodup {n : Nat} (h : n ≤ 131072) (p : BytePos) : (positions n p).Nodup := by
  induction n generalizing p with
  | zero => exact List.nodup_nil
  | succ n ih =>
    refine List.nodup_cons.2 ⟨fun hp => ?_, ih (by omega) _⟩
    obtain ⟨k, hk, e⟩ := mem_positions hp
    rw [BytePos.next_number] at e
    have := p.addr.isLt
    have hq : p.half.toNat < 2 := by cases p.half <;> decide
    omega

theorem fieldCells_length (n : Nat) (p : BytePos) : (fieldCells n p).length = n := by
  simp [fieldCells, positions_length]

theorem fieldCells_nodup {n : Nat} (h : n ≤ 131072) (p : BytePos) : (fieldCells n p).Nodup :=
  (positions_nodup h p).map fun _ _ e => flatCell_inj e

theorem fieldCells_succ (n : Nat) (p : BytePos) : fieldCells (n + 1) p = flatCell p :: fieldCells n p.next := rfl

theorem State.bytesAt_succ (s : State) (n : Nat) (p : BytePos) :
    s.bytesAt (n + 1) p = s.byteOf (flatCell p) :: s.bytesAt n p.next := rfl

@[simp] theorem State.bytesAt_length (s : State) (n : Nat) (p : BytePos) : (s.bytesAt n p).length = n := by
  simp [State.bytesAt, positions_length]

/-- Fields that hold the same bytes cell by cell read the same. -/
theorem State.bytesAt_congr {s t : State} {n : Nat} {p : BytePos} (h : ∀ c ∈ fieldCells n p, t.byteOf c = s.byteOf c) :
    t.bytesAt n p = s.bytesAt n p :=
  List.map_congr_left fun _ hq => h _ (List.mem_map_of_mem hq)

/-! ## Reading and writing a field -/

/-- With memory management off a field is read as it stands. -/
theorem readBytes_flat {s : State} (h : s.Flat) (n : Nat) (p : BytePos) : readBytes n p s = .ok (s.bytesAt n p) s := by
  induction n generalizing p with
  | zero => rfl
  | succ n ih => simp [readBytes, readByte_flat h, ih, State.bytesAt_succ]

/-- With memory management off a field written holds the bytes written, and nothing but its cells changes. -/
theorem writeBytes_flat {s : State} (h : s.Flat) (p : BytePos) (bs : List Byte) (hn : bs.length ≤ 131072) :
    ∃ t, writeBytes p bs s = .ok () t ∧ t = (s.setMem t.mem).setPt t.pt ∧ t.bytesAt bs.length p = bs ∧
      SameBytesBut (fieldCells bs.length p) s t := by
  induction bs generalizing p s with
  | nil => exact ⟨s, rfl, rfl, rfl, fun _ _ => rfl⟩
  | cons b bs ih =>
    obtain ⟨u, h1, h2, h3⟩ := writeByteAt_flat h p b
    have hu : u.Flat := h.congr (by rw [h2]; rfl) (by rw [h2]; rfl)
    obtain ⟨t, k1, k2, k3, k4⟩ := ih hu p.next (by simp at hn; omega)
    have hp : flatCell p ∉ fieldCells bs.length p.next :=
      (List.nodup_cons.1 (fieldCells_succ _ p ▸ fieldCells_nodup (n := bs.length + 1) (by simpa using hn) p)).1
    refine ⟨t, by simp [writeBytes, h1, k1], by rw [k2, h2]; rfl, ?_, fun c hc => ?_⟩
    · rw [List.length_cons, State.bytesAt_succ, k3, k4 _ hp, h3, if_pos rfl]
    · rw [List.length_cons, fieldCells_succ, List.mem_cons, not_or] at hc
      rw [k4 _ hc.2, h3, if_neg hc.1]

/-! ## Block descriptors -/

/-- Bit by bit: bit 15 is the half, the count below, the bits between kept (R405). -/
theorem getLsbD_setBlockDescr {bits : Nat} (hb : bits ≤ 15) (d : Word) (h : Bool) {n : Nat} (hn : n < 2 ^ bits) (k : Nat) :
    (setBlockDescr bits d h n).getLsbD k = if k = 15 then h else if k < bits then n.testBit k else d.getLsbD k := by
  unfold setBlockDescr
  rw [getLsbD_setBit]
  by_cases hk : k = 15
  · simp [hk]
  · simp only [hk, false_and, if_false, BitVec.getLsbD_ofNat]
    have e : d.toNat / 2 ^ bits * 2 ^ bits + n % 2 ^ bits = 2 ^ bits * (d.toNat / 2 ^ bits) + n := by
      rw [Nat.mod_eq_of_lt hn, mul_comm]
    rw [e, Nat.testBit_two_pow_mul_add _ hn]
    by_cases k16 : k < 16
    · simp only [k16, decide_true, Bool.true_and]
      split
      · rfl
      · rw [Nat.testBit_div_two_pow, Nat.sub_add_cancel (by omega)]
        rfl
    · simp only [k16, decide_false, Bool.false_and]
      rw [if_neg (by omega), BitVec.getLsbD_of_ge _ _ (by omega)]

theorem setBlockDescr_msb {bits : Nat} (hb : bits ≤ 15) (d : Word) (h : Bool) {n : Nat} (hn : n < 2 ^ bits) :
    (setBlockDescr bits d h n).msb = h := by
  have := getLsbD_setBlockDescr hb d h hn 15
  rw [if_pos rfl] at this
  rw [BitVec.msb_eq_getLsbD_last]
  exact this

theorem setBlockDescr_len {bits : Nat} (hb : bits ≤ 15) (d : Word) (h : Bool) {n : Nat} (hn : n < 2 ^ bits) :
    blockLen bits (setBlockDescr bits d h n) = n := by
  apply Nat.eq_of_testBit_eq
  intro k
  unfold blockLen
  rw [Nat.testBit_mod_two_pow]
  by_cases hk : k < bits
  · have := getLsbD_setBlockDescr hb d h hn k
    rw [if_neg (by omega), if_pos hk] at this
    simp only [hk, decide_true, Bool.true_and]
    exact this
  · simp only [hk, decide_false, Bool.false_and]
    exact (Nat.testBit_lt_two_pow (lt_of_lt_of_le hn (Nat.pow_le_pow_right (by omega) (by omega)))).symm

end Sys2Proof.Machine
end

