-- ==== Sys2Proof/Laws/Flags.lean ====
section
/-! SUPPORT. What the flag computations leave in each flag. -/

namespace Sys2Proof.Machine

open Sys2Proof

/-- The flags after the overflow rule (R204): Q is the overflow, O is set by it and else kept. -/
theorem getLsbD_overflowFlags (ovf : Bool) (f : Byte) (n : Nat) :
    (overflowFlags ovf f).getLsbD n = if n = 4 then ovf else if n = 5 then (ovf || f.getLsbD 5) else f.getLsbD n := by
  cases ovf <;> simp only [overflowFlags, if_true, Bool.false_eq_true, if_false, getLsbD_setBit] <;> grind

/-- The flags after an addition (R204): C, Q, O, and the rest kept. -/
theorem getLsbD_addFlags (a b : Word) (cin : Bool) (f : Byte) (n : Nat) :
    (addFlags a b cin f).getLsbD n =
      if n = 4 then addOverflow a b cin
      else if n = 5 then (addOverflow a b cin || f.getLsbD 5)
      else if n = 6 then addCarry a b cin
      else f.getLsbD n := by
  simp only [addFlags, getLsbD_overflowFlags, getLsbD_setBit]
  grind

/-- The sign rule of the source says that the exact signed sum is out of range (R204). -/
theorem addOverflow_eq (a b : Word) (cin : Bool) :
    addOverflow a b cin =
      decide (a.toInt + b.toInt + cin.toNat < -32768 ∨ 32767 < a.toInt + b.toInt + cin.toNat) := by
  unfold addOverflow addWord addExact
  have := a.isLt
  have := b.isLt
  simp only [BitVec.msb_eq_decide, BitVec.toInt_eq_toNat_cond, BitVec.toNat_ofNat]
  cases cin <;> simp only [Bool.toNat_true, Bool.toNat_false] <;> grind

/-- The sum of the 16-bit adder. -/
theorem addWord_eq (a b : Word) (cin : Bool) : addWord a b cin = a + b + (if cin then 1 else 0) := by
  unfold addWord addExact
  apply BitVec.eq_of_toNat_eq
  cases cin <;> simp

/-- The open flags after RMPY and RDIV (R330, R331). -/
theorem getLsbD_openArithFlags (v : Word) (f : Byte) (n : Nat) :
    (openArithFlags v f).getLsbD n =
      if n = 4 then v.getLsbD 2 else if n = 5 then v.getLsbD 1 else if n = 6 then v.getLsbD 0 else f.getLsbD n := by
  simp only [openArithFlags, getLsbD_setBit]
  grind

end Sys2Proof.Machine
end

