-- ==== Sys2Proof/Laws/Levels.lean ====
section
/-! SUPPORT. Level selection and host events: all that each can do. -/

namespace Sys2Proof.Machine

open Sys2Proof Sys2Proof.Config

theorem highestBit_le (m : Word) (n : Nat) : highestBit m n ≤ n := by
  induction n with
  | zero => simp [highestBit]
  | succ n ih => unfold highestBit; split <;> omega

/-- The highest set bit is set, or there is none from 1 up. -/
theorem highestBit_set (m : Word) (n : Nat) : highestBit m n = 0 ∨ m.getLsbD (highestBit m n) = true := by
  induction n with
  | zero => exact .inl rfl
  | succ n ih =>
    unfold highestBit
    split
    · exact .inr ‹_›
    · exact ih

/-- No set bit is higher. -/
theorem le_highestBit {m : Word} {n k : Nat} (hk : k ≤ n) (h : m.getLsbD k = true) : k ≤ highestBit m n := by
  induction n with
  | zero => omega
  | succ n ih =>
    unfold highestBit
    split
    · omega
    · rcases Nat.lt_or_ge n k with e | e
      · obtain rfl : k = n + 1 := by omega
        exact absurd h ‹_›
      · exact ih e

/-- Level selection writes PIL alone (R703). -/
theorem State.select_eq (s : State) : s.select = s.setPil s.select.pil := by
  unfold State.select
  split <;> rfl

theorem State.select_off {s : State} (h : s.ioni = false) : s.select = s := by simp [State.select, h]

theorem State.select_on {s : State} (h : s.ioni = true) : s.select.pil.toNat = highestBit (s.pid &&& s.pie) 15 := by
  have := highestBit_le (s.pid &&& s.pie) 15
  simp only [State.select, h, if_true, State.setPil_pil, BitVec.toNat_ofNat]
  omega

/-- All a host event changes: PID, the latches of an internal interrupt, the run state, a word of memory. -/
theorem State.takeEvent_eq (s : State) (e : HostEvent) :
    let t := s.takeEvent e
    t = { s with mem := t.mem, pid := t.pid, iic := t.iic, pvl := t.pvl, run := t.run, draws := t.draws } ∧
      ∀ n, s.pid.getLsbD n = true → t.pid.getLsbD n = true := by
  cases e with
  | deviceRequest lv => exact ⟨rfl, fun n h => by simp [State.takeEvent, h]⟩
  | operatorStart => exact ⟨rfl, fun n h => h⟩
  | agentWrite pa v =>
    simp only [State.takeEvent]
    split <;> exact ⟨rfl, fun n h => h⟩
  | parityError =>
    simp only [State.takeEvent, State.requestIfEnabled]
    split
    · exact ⟨rfl, fun n h => by simp [State.request, h]⟩
    · exact ⟨rfl, fun n h => h⟩
  | powerFailing =>
    simp only [State.takeEvent, State.requestIfEnabled]
    split
    · exact ⟨rfl, fun n h => by simp [State.request, h]⟩
    · exact ⟨rfl, fun n h => h⟩

/-- With no host event before this step, only the queue moves on. -/
theorem State.takeEvents_none {s : State} (h : s.inbox.headD [] = []) : s.takeEvents = s.setInbox s.inbox.tail := by
  unfold State.takeEvents
  rw [h]
  rfl

end Sys2Proof.Machine
end

