-- ==== Sys2Proof/Laws/WellFormed.lean ====
section
/-! SUPPORT. The shared operations over memory keep a state well formed: its stores canonical, and within what is
installed. -/

namespace Sys2Proof.Machine

open Sys2Proof Sys2Proof.Config

/-- Well-formedness is of the parameters and the two stores alone. -/
theorem State.Wf.congr {s t : State} (h : s.Wf) (hp : t.params = s.params) (hm : t.mem = s.mem) (ht : t.pt = s.pt) :
    t.Wf where
  params := hp ▸ h.params
  blockLenBits := hp ▸ h.blockLenBits
  mem := hm ▸ h.mem
  pt := ht ▸ h.pt
  memInstalled := by rw [hm, hp]; exact h.memInstalled
  ptInstalled := by rw [ht]; exact h.ptInstalled

theorem State.Wf.setCur {s : State} (h : s.Wf) (r : RegSet) : (s.setCur r).Wf := h.congr rfl rfl rfl

theorem State.Wf.setLevel {s : State} (h : s.Wf) (lv : Level) (r : RegSet) : (s.setLevel lv r).Wf := h.congr rfl rfl rfl

theorem State.Wf.drawn {s : State} (h : s.Wf) (n : Nat) : (s.drawn n).Wf := h.congr rfl rfl rfl

theorem State.Wf.request {s : State} (h : s.Wf) (c : IntCode) : (s.request c).Wf := h.congr rfl rfl rfl

/-- A word written at an installed place. -/
theorem State.Wf.writePlace {s : State} (h : s.Wf) {v : Word} {p : TransTarget} (hp : s.installed p = true) :
    (s.writePlace v p).Wf := by
  cases p with
  | phys pa =>
    have hp : pa.toNat < s.params.physWords := by simpa [State.installed] using hp
    exact ⟨h.params, h.blockLenBits, Memory.writeWord_wf _ _ h.mem, h.pt, Memory.writeWord_bound hp h.memInstalled,
      h.ptInstalled⟩
  | table i =>
    have hi : i.toNat < 512 := i.isLt
    exact ⟨h.params, h.blockLenBits, h.mem, Memory.writeWord_wf _ _ h.pt, h.memInstalled,
      Memory.writeWord_bound (k := 512) hi h.ptInstalled⟩

theorem State.Wf.mark {s : State} (h : s.Wf) (n : Nat) (o : Option (BitVec 9)) : (s.mark n o).Wf := by
  cases o with
  | none => exact h
  | some i => exact h.writePlace (v := setBit (s.pt.wordAt i.toNat) n true) (p := .table i) rfl

theorem locate_wf {s : State} (h : s.Wf) (k : AccessKind) (t : TableTag) (a : Word) :
    (locate k t a s).All State.Wf := by
  unfold locate translated
  split
  · exact h
  · split
    · split
      · split
        · exact (h.mark _ _).mark _ _
        · exact h
      · exact h
      · exact h
    · split <;> exact h

/-- The place of an access that answers is installed in the state it leaves. -/
theorem installed_of_locate {k : AccessKind} {t : TableTag} {a : Word} {s s' : State} {p : TransTarget}
    (h : locate k t a s = .ok p s') : s'.installed p = true := by
  have e := (locate_ok h).params
  have := locate_installed h
  cases p <;> simp_all [State.installed]

theorem memReadVia_wf {s : State} (h : s.Wf) (t : TableTag) (a : Word) : (memReadVia t a s).All State.Wf :=
  (locate_wf h .read t a).bind fun _ _ _ k => k

theorem memRead_wf {s : State} (h : s.Wf) (a : Word) : (memRead a s).All State.Wf := memReadVia_wf h _ a

theorem memWriteVia_wf {s : State} (h : s.Wf) (t : TableTag) (a v : Word) : (memWriteVia t a v s).All State.Wf :=
  (locate_wf h .write t a).bind fun _ _ e k => k.writePlace (installed_of_locate e)

theorem memWrite_wf {s : State} (h : s.Wf) (a v : Word) : (memWrite a v s).All State.Wf := memWriteVia_wf h _ a v

theorem memTestAndSet_wf {s : State} (h : s.Wf) (a : Word) : (memTestAndSet a s).All State.Wf :=
  (locate_wf h .write .untagged a).bind fun _ _ e k => k.writePlace (installed_of_locate e)

theorem memReadList_wf {s : State} (h : s.Wf) (a : Word) (n : Nat) : (memReadList a n s).All State.Wf := by
  induction n generalizing a s with
  | zero => exact h
  | succ n ih => exact (memRead_wf h a).bind fun _ _ _ k => (ih k (a + 1)).bind fun _ _ _ k => k

theorem memWriteList_wf {s : State} (h : s.Wf) (a : Word) (vs : List Word) : (memWriteList a vs s).All State.Wf := by
  induction vs generalizing a s with
  | nil => exact h
  | cons v vs ih => exact (memWrite_wf h a v).bind fun _ _ _ k => ih k (a + 1)

theorem physRead_wf {s : State} (h : s.Wf) (b a : Word) : (physRead b a s).All State.Wf := by
  unfold physRead
  split <;> exact h

theorem physWrite_wf {s : State} (h : s.Wf) (b a v : Word) : (physWrite b a v s).All State.Wf := by
  unfold physWrite
  split
  · exact h.writePlace ‹_›
  · exact h

theorem effAddr_wf {s : State} (h : s.Wf) (m : AddrMode) : (effAddr m s).All State.Wf := by
  unfold effAddr
  split
  · exact (memRead_wf h _).bind fun _ _ _ k => k
  · exact h

theorem operandWord_wf {s : State} (h : s.Wf) (m : AddrMode) : (operandWord m s).All State.Wf :=
  (effAddr_wf h m).bind fun a _ _ k => memRead_wf k a

theorem readByte_wf {s : State} (h : s.Wf) (p : BytePos) : (readByte p s).All State.Wf :=
  (memRead_wf h p.addr).bind fun _ _ _ k => k

theorem writeByteAt_wf {s : State} (h : s.Wf) (p : BytePos) (v : Byte) : (writeByteAt p v s).All State.Wf :=
  (memRead_wf h p.addr).bind fun _ _ _ k => memWrite_wf k _ _

theorem readBytes_wf {s : State} (h : s.Wf) (n : Nat) (p : BytePos) : (readBytes n p s).All State.Wf := by
  induction n generalizing p s with
  | zero => exact h
  | succ n ih => exact (readByte_wf h p).bind fun _ _ _ k => (ih k p.next).bind fun _ _ _ k => k

theorem writeBytes_wf {s : State} (h : s.Wf) (p : BytePos) (bs : List Byte) : (writeBytes p bs s).All State.Wf := by
  induction bs generalizing p s with
  | nil => exact h
  | cons b bs ih => exact (writeByteAt_wf h p b).bind fun _ _ _ k => ih k p.next

end Sys2Proof.Machine
end

