-- ==== Sys2Proof/Tests/Slice0.lean ====
section
/-! SUPPORT. Small tests, each of one step or one word: the checks of WellFormed, decoding by written-out words, one or
two steps per instruction, and for every obligation with hypotheses a state that meets them. Words are written from the
encodings of spec/opcode_table.json and 30_encoding.md; results of steps are those of 95_test_vectors.md, part 2, under
the row named, or computed by hand from the rule named. -/

namespace Sys2Proof.Tests

open Sys2Proof Sys2Proof.Config Sys2Proof.Machine

/-! ## Helpers -/

def z : RegSet := RegSet.reset

/-- A memory with the words listed. -/
def put (ws : List (Nat × Word)) : Memory := ws.foldl (fun m w => m.writeWord w.1 w.2) []

/-- The state after power-up with a level running at 0o100, its registers and memory set. -/
def onLevel (lv : Level) (r : RegSet) (ws : List (Nat × Word)) : State :=
  { State.reset with pil := lv, mem := put ws }.setCur { r with p := 0o100 }

def at100 (r : RegSet) (ws : List (Nat × Word)) : State := onLevel 0 r ws

/-- What one step of a word leaves. -/
def out {α : Type} (w : Nat) (s : State) (f : State → α) : Option α :=
  match step (s.withFetchWord 16 w) with
  | .next t => some (f t)
  | _ => none

def refusal (w : Nat) (s : State) : Option Refusal :=
  match step (s.withFetchWord 16 w) with
  | .refused r => some r
  | _ => none

def fault (w : Nat) (s : State) : Option Fault :=
  match step (s.withFetchWord 16 w) with
  | .fault f => some f
  | _ => none

/-- The interrupt system on, level 14 and one cause enabled. -/
def trapping (s : State) (iie : Word) : State := { s with ioni := true, pie := 0o40000, iie := iie }

/-- What a trap leaves: P of level 0, PID, IIC, PVL. -/
def trapped (t : State) : Word × Word × BitVec 4 × Level := ((t.level 0).p, t.pid, t.iic, t.pvl)

/-- Memory management on, the ring and the answers of `Translate` given; logical page 0 is mapped for the fetch. -/
def mapped (ring : BitVec 2) (answers : List (AccessKind × Word × TransAnswer)) (s : State) : State :=
  let s := { s with poni := true }
  let q (a : AccessKind × Word × TransAnswer) := ((⟨s.transView, a.1, .untagged, a.2.1⟩ : TransQuery), a.2.2)
  { s with params := { s.params with
      rings := [(s.transView, ring)]
      translations := q (.fetch, 0o100, .ok (.phys 0o100) none none) :: answers.map q } }

def decodes (ws : List Word) (is : List Instr) : Bool := ws.map decodeWord == is.map some

/-! ## WellFormed: the terms it refuses -/

/-- A RADD term that spells COPY (R144). -/
theorem test_wf_radd_copy : (Instr.radd false false false true .a .d).wf = false := by decide

/-- A RADD term that spells RINC (R144). -/
theorem test_wf_radd_rinc : (Instr.radd false true false false .zero .d).wf = false := by decide

/-- A RADD term that spells RDCR (R144). -/
theorem test_wf_radd_rdcr : (Instr.radd false false true false .zero .d).wf = false := by decide

/-- A RADD term that spells RSUB (R144). -/
theorem test_wf_radd_rsub : (Instr.radd false true true false .t .b).wf = false := by decide

/-- A COPY term that spells RCLR (R144). -/
theorem test_wf_copy_rclr : (Instr.copy .zero .a).wf = false := by decide

/-- A COPY term that spells EXIT (R144). -/
theorem test_wf_copy_exit : (Instr.copy .l .p).wf = false := by decide

theorem test_wf_radd : (Instr.radd true false false true .a .d).wf = true := by decide

/-! ## Decoding: every instruction, from a word written out from its row of the opcode table -/

theorem test_decode_memory_reference :
    decodes [
      0o002647, 0o004136, 0o010027, 0o017076, 0o021324, 0o024224, 0o032014, 0o035445, 0o041033, 0o045215, 0o050200,
      0o057626, 0o063500, 0o064224, 0o073673, 0o077037, 0o102447, 0o107367, 0o111662, 0o117422, 0o121663, 0o124646,
      0o137744] [
      .stz ⟨true, false, true, 0o247⟩, .sta ⟨false, false, false, 0o136⟩, .stt ⟨false, false, false, 0o27⟩,
      .stx ⟨true, true, false, 0o76⟩, .std ⟨false, true, false, 0o324⟩, .ldd ⟨false, false, false, 0o224⟩,
      .stf ⟨true, false, false, 0o14⟩, .ldf ⟨false, true, true, 0o45⟩, .min ⟨false, true, false, 0o33⟩,
      .lda ⟨false, true, false, 0o215⟩, .ldt ⟨false, false, false, 0o200⟩, .ldx ⟨true, true, true, 0o226⟩,
      .add ⟨true, true, true, 0o100⟩, .sub ⟨false, false, false, 0o224⟩, .and ⟨true, true, true, 0o273⟩,
      .ora ⟨true, true, false, 0o37⟩, .fad ⟨true, false, true, 0o47⟩, .fsb ⟨true, true, false, 0o367⟩,
      .fmu ⟨false, true, true, 0o262⟩, .fdv ⟨true, true, true, 0o22⟩, .mpy ⟨false, true, true, 0o263⟩,
      .jmp ⟨false, false, true, 0o246⟩, .jpl ⟨true, true, true, 0o344⟩] = true := by decide

theorem test_decode_jumps_arguments :
    decodes [
      0o130254, 0o130531, 0o131006, 0o131761, 0o132167, 0o132533, 0o133054, 0o133635, 0o170036, 0o170577, 0o171020,
      0o171470, 0o172305, 0o172512, 0o173042, 0o173676, 0o151100, 0o151546, 0o152145, 0o153353] [
      .jap 0o254, .jan 0o131, .jaz 6, .jaf 0o361, .jpc 0o167, .jnc 0o133, .jxz 0o54, .jxn 0o235, .sab 0o36,
      .saa 0o177, .sat 0o20, .sax 0o70, .aab 0o305, .aaa 0o112, .aat 0o42, .aax 0o276, .wait 0o100, .nlz 0o146,
      .dnz 0o145, .mon 0o353] = true := by decide

theorem test_decode_registers :
    decodes [
      0o143412, 0o144353, 0o144575, 0o145336, 0o145721, 0o147114, 0o146175, 0o146102, 0o146403, 0o146203, 0o146612,
      0o146142] [
      .skp .mlst .d .p, .swap true true .a .b, .rand false true .x .a, .rexo true true .b .t, .rora true true .p .d,
      .radd true false false true .d .l, .copy .x .a, .rclr .p, .rinc .b, .rdcr .b, .rsub .d .p, .exit] = true := by decide

theorem test_decode_bits :
    decodes [
      0o174075, 0o174265, 0o174523, 0o174636, 0o175165, 0o175326, 0o175536, 0o175614, 0o176177, 0o176357, 0o176537,
      0o176714, 0o177074, 0o177271, 0o177506, 0o177671] [
      .bsetZro 7 .a, .bsetOne 6 .a, .bsetBcm 0o12 .b, .bsetBac 3 .t, .bskpZro 0o16 .a, .bskpOne 0o12 .t,
      .bskpBcm 0o13 .t, .bskpBac 1 .l, .bstc 0o17 .x, .bsta 0o15 .x, .bldc 0o13 .x, .blda 0o11 .l, .banc 7 .l,
      .band 7 .d, .borc 0o10 .t, .bora 7 .d] = true := by decide

theorem test_decode_shifts_io_internal :
    decodes [
      0o155005, 0o155235, 0o155410, 0o156647, 0o160154, 0o164322, 0o150001, 0o150112, 0o150203, 0o150311] [
      .sht .rot 5, .shd .rot 0o35, .sha .rot 0o10, .sad .zin 0o47, .iot 0o154, .iox 0o322, .tra 1, .trr 0o12, .mcl 3,
      .mst 0o11] = true := by decide

theorem test_decode_system :
    decodes [
      0o150400, 0o150401, 0o150402, 0o150404, 0o150405, 0o150406, 0o150407, 0o150410, 0o150412, 0o150415, 0o150416,
      0o150417] [
      .opcom, .iof, .ion, .pof, .piof, .sex, .rex, .pon, .pion, .ioxt, .exam, .depo] = true := by decide

theorem test_decode_decimal_blocks_stack :
    decodes [
      0o140120, 0o140121, 0o140122, 0o140123, 0o140124, 0o140125, 0o140126, 0o140127, 0o140130, 0o140131, 0o140132,
      0o140134, 0o140135, 0o140136, 0o140137] [
      .addd, .subd, .comd, .tset, .pack, .upack, .shde, .rdus, .bfill, .movb, .movbf, .init, .entr, .leave, .eleav] = true := by decide

theorem test_decode_sintran :
    decodes [
      0o140300, 0o140301, 0o140302, 0o140303, 0o140304, 0o140500, 0o140501, 0o140502, 0o140503, 0o140504, 0o140505,
      0o140506, 0o140507, 0o140510, 0o140511, 0o140512, 0o140513, 0o140514, 0o140515, 0o140516] [
      .setpt, .clept, .clnreent, .chreentpages, .clepu, .wglob, .rglob, .inspl, .rempl, .cnrek, .clpt, .enpt, .rept,
      .lbit, .lbitp, .sbit, .sbitp, .lbytp, .sbytp, .tsetp] = true := by decide

theorem test_decode_others :
    decodes [
      0o140517, 0o142200, 0o142600, 0o142700, 0o143200, 0o143500, 0o140133, 0o140613, 0o141651, 0o141217] [
      .rdusp, .lbyt, .sbyt, .geco, .mix3, .lwcs, .versn, .exr .d 3, .rdiv .a 1, .rmpy .d .x] = true := by decide

theorem test_decode_banks_tx :
    decodes [
      0o140720, 0o140751, 0o140742, 0o140723, 0o140764, 0o140735, 0o140736, 0o140757, 0o143330, 0o143341, 0o143312,
      0o143313, 0o143374, 0o143345, 0o143346] [
      .lasb 2, .sasb 5, .lacb 4, .sacb 2, .lxsb 6, .lxcb 3, .szsb 3, .szcb 5, .ldatx 3, .ldxtx 4, .lddtx 1, .ldbtx 1,
      .statx 7, .stztx 4, .stdtx 4] = true := by decide

theorem test_decode_movew_ident :
    decodes [
      0o143100, 0o143101, 0o143102, 0o143103, 0o143104, 0o143105, 0o143106, 0o143107, 0o143110, 0o143604, 0o143611,
      0o143622, 0o143643] [
      .movew0, .movew1, .movew2, .movew3, .movew4, .movew5, .movew6, .movew7, .movew10, .identPl10, .identPl11,
      .identPl12, .identPl13] = true := by decide

theorem test_decode_levels :
    decodes [
      0o152502, 0o152700, 0o153451, 0o153631] [
      .srb 0o10, .lrb 0o10, .irw 5 .d, .irr 3 .d] = true := by decide

theorem test_decode_table_word : decodeTableWord 16 0o044774 = some (.lda ⟨false, false, true, 0o374⟩) := by decide

theorem test_decode_two_bytes : decode [0o111, 0o374, 7] = .ok (.lda ⟨false, false, true, 0o374⟩, [7]) := by rfl

theorem test_decode_one_byte : decode [0o111] = .error .truncated := by rfl

/-! ## Steps -/

/-- `LDA ,X I ,B 4` -/
theorem test_lda_mode7 :
    out 0o047404 (at100 { z with b := 0o2000, x := 0o10 } [(0o2004, 0o3300), (0o3310, 0o1111)])
      (fun t => (t.cur.a, t.cur.p))
      = some (0o1111, 0o101) := by decide

/-- `LDA 0,X` -/
theorem test_lda_mode4 :
    out 0o046000 (at100 { z with b := 0o2000, x := 0o10 } [(0o10, 0o555)])
      (fun t => (t.cur.a, t.cur.p))
      = some (0o555, 0o101) := by decide

/-- `STZ *10` -/
theorem test_stz :
    out 0o000010 (at100 z [(0o110, 0o7777)])
      (fun t => (t.mem.wordAt 0o110, t.cur.p))
      = some (0, 0o101) := by decide

/-- `STA *10` -/
theorem test_sta :
    out 0o004010 (at100 { z with a := 0o1234 } [])
      (fun t => (t.mem.wordAt 0o110, t.cur.p))
      = some (0o1234, 0o101) := by decide

/-- `STT *10` -/
theorem test_stt :
    out 0o010010 (at100 { z with t := 0o4321 } [])
      (fun t => (t.mem.wordAt 0o110, t.cur.p))
      = some (0o4321, 0o101) := by decide

/-- `STX *10` -/
theorem test_stx :
    out 0o014010 (at100 { z with x := 0o177777 } [])
      (fun t => (t.mem.wordAt 0o110, t.cur.p))
      = some (0o177777, 0o101) := by decide

/-- `STD *10` -/
theorem test_std :
    out 0o020010 (at100 { z with a := 1, d := 2 } [])
      (fun t => (t.mem.wordAt 0o110, t.mem.wordAt 0o111, t.cur.p))
      = some (1, 2, 0o101) := by decide

/-- `LDD *10` -/
theorem test_ldd :
    out 0o024010 (at100 z [(0o110, 0o12), (0o111, 0o34)])
      (fun t => (t.cur.a, t.cur.d, t.cur.p))
      = some (0o12, 0o34, 0o101) := by decide

/-- `LDT *10` -/
theorem test_ldt :
    out 0o050010 (at100 z [(0o110, 0o55)])
      (fun t => (t.cur.t, t.cur.p))
      = some (0o55, 0o101) := by decide

/-- `LDX *10` -/
theorem test_ldx :
    out 0o054010 (at100 z [(0o110, 0o66)])
      (fun t => (t.cur.x, t.cur.p))
      = some (0o66, 0o101) := by decide

/-- `MIN *10` -/
theorem test_min_skips :
    out 0o040010 (at100 z [(0o110, 0o177777)])
      (fun t => (t.mem.wordAt 0o110, t.cur.p))
      = some (0, 0o102) := by decide

/-- `ADD *10` -/
theorem test_add_overflow :
    out 0o060010 (at100 { z with a := 0o77777 } [(0o110, 1)])
      (fun t => (t.cur.a, t.cur.q, t.cur.o, t.cur.c, t.cur.p))
      = some (0o100000, true, true, false, 0o101) := by decide

/-- `ADD *10` -/
theorem test_add_sticky :
    out 0o060010 (at100 { z with a := 1, sts := 0o60 } [(0o110, 1)])
      (fun t => (t.cur.a, t.cur.q, t.cur.o, t.cur.c, t.cur.p))
      = some (2, false, true, false, 0o101) := by decide

/-- `SUB *10` -/
theorem test_sub_borrow :
    out 0o064010 (at100 { z with a := 0 } [(0o110, 0o100000)])
      (fun t => (t.cur.a, t.cur.q, t.cur.o, t.cur.c, t.cur.p))
      = some (0o100000, true, true, false, 0o101) := by decide

/-- `SUB *10` -/
theorem test_sub_zero :
    out 0o064010 (at100 { z with a := 7 } [(0o110, 0)])
      (fun t => (t.cur.a, t.cur.q, t.cur.o, t.cur.c, t.cur.p))
      = some (7, false, false, true, 0o101) := by decide

/-- `AND *10` -/
theorem test_and :
    out 0o070010 (at100 { z with a := 0o170360, sts := 0o160 } [(0o110, 0o7777)])
      (fun t => (t.cur.a, t.cur.q, t.cur.o, t.cur.c, t.cur.p))
      = some (0o360, true, true, true, 0o101) := by decide

/-- `ORA *10` -/
theorem test_ora :
    out 0o074010 (at100 { z with a := 0o170000, sts := 0o160 } [(0o110, 0o17)])
      (fun t => (t.cur.a, t.cur.q, t.cur.o, t.cur.c, t.cur.p))
      = some (0o170017, true, true, true, 0o101) := by decide

/-- `MPY *10` -/
theorem test_mpy :
    out 0o120010 (at100 { z with a := 3, sts := 0o100 } [(0o110, 0o177776)])
      (fun t => (t.cur.a, t.cur.q, t.cur.o, t.cur.c, t.cur.p))
      = some (0o177772, false, false, true, 0o101) := by decide

/-- `MPY *10` -/
theorem test_mpy_overflow :
    out 0o120010 (at100 { z with a := 0o400 } [(0o110, 0o200)])
      (fun t => (t.cur.a, t.cur.q, t.cur.o, t.cur.c, t.cur.p))
      = some (0o100000, true, true, false, 0o101) := by decide

/-- `JMP I *2` -/
theorem test_jmp_indirect : out 0o125002 (at100 z [(0o102, 0o4000)]) (fun t => (t.cur.p)) = some (0o4000) := by decide

/-- `JPL I 3,B` -/
theorem test_jpl :
    out 0o135403 (at100 { z with b := 0o2000 } [(0o2003, 0o5000)])
      (fun t => (t.cur.l, t.cur.p))
      = some (0o101, 0o5000) := by decide

/-- `JAP *5` -/
theorem test_jap_zero : out 0o130005 (at100 { z with a := 0 } []) (fun t => (t.cur.p)) = some (0o105) := by decide

/-- `JAN *-2` -/
theorem test_jan : out 0o130776 (at100 { z with a := 0o177777 } []) (fun t => (t.cur.p)) = some (0o76) := by decide

/-- `JAZ *3` -/
theorem test_jaz : out 0o131003 (at100 { z with a := 0 } []) (fun t => (t.cur.p)) = some (0o103) := by decide

/-- `JAF *-3` -/
theorem test_jaf : out 0o131775 (at100 { z with a := 2 } []) (fun t => (t.cur.p)) = some (0o75) := by decide

/-- `JPC *-4` -/
theorem test_jpc :
    out 0o132374 (at100 { z with x := 0o77777 } [])
      (fun t => (t.cur.x, t.cur.p))
      = some (0o100000, 0o101) := by decide

/-- `JNC *-3` -/
theorem test_jnc :
    out 0o132775 (at100 { z with x := 0o177777 } [])
      (fun t => (t.cur.x, t.cur.p))
      = some (0, 0o101) := by decide

/-- `JXZ *10` -/
theorem test_jxz : out 0o133010 (at100 { z with x := 0 } []) (fun t => (t.cur.p)) = some (0o110) := by decide

/-- `JXN *2` -/
theorem test_jxn : out 0o133402 (at100 { z with x := 0o100000 } []) (fun t => (t.cur.p)) = some (0o102) := by decide

/-- `SKP DA GRE SX` -/
theorem test_skp_gre :
    out 0o141075 (at100 { z with a := 0o77777, x := 0o177777, sts := 0o170 } [])
      (fun t => (t.cur.z, t.cur.q, t.cur.o, t.cur.c, t.cur.p))
      = some (true, true, true, true, 0o102) := by decide

/-- `SKP DA MLST SX` -/
theorem test_skp_mlst :
    out 0o143475 (at100 { z with a := 0o177777, x := 1, sts := 0o170 } [])
      (fun t => (t.cur.z, t.cur.q, t.cur.o, t.cur.c, t.cur.p))
      = some (true, true, true, true, 0o101) := by decide

/-- `EXR SA` -/
theorem test_exr_stx :
    out 0o140650 (at100 { z with a := 0o14177, x := 0o55 } [])
      (fun t => (t.mem.wordAt 0o277, t.cur.z, t.cur.p))
      = some (0o55, false, 0o101) := by decide

/-- `EXR ST` -/
theorem test_exr_exr :
    out 0o140660 (at100 { z with t := 0o140650 } [])
      (fun t => (t.cur.z, t.cur.p))
      = some (true, 0o101) := by decide

/-- `SAB -26` -/
theorem test_sab :
    out 0o170352 (at100 { z with b := 0o1111, sts := 0o160 } [])
      (fun t => (t.cur.b, t.cur.q, t.cur.o, t.cur.c, t.cur.p))
      = some (0o177752, true, true, true, 0o101) := by decide

/-- `SAA 10` -/
theorem test_saa :
    out 0o170410 (at100 z [])
      (fun t => (t.cur.a, t.cur.q, t.cur.o, t.cur.c, t.cur.p))
      = some (0o10, false, false, false, 0o101) := by decide

/-- `SAT 20` -/
theorem test_sat :
    out 0o171020 (at100 z [])
      (fun t => (t.cur.t, t.cur.q, t.cur.o, t.cur.c, t.cur.p))
      = some (0o20, false, false, false, 0o101) := by decide

/-- `SAX -5` -/
theorem test_sax :
    out 0o171773 (at100 z [])
      (fun t => (t.cur.x, t.cur.q, t.cur.o, t.cur.c, t.cur.p))
      = some (0o177773, false, false, false, 0o101) := by decide

/-- `AAB -26` -/
theorem test_aab :
    out 0o172352 (at100 { z with b := 0o30 } [])
      (fun t => (t.cur.b, t.cur.q, t.cur.o, t.cur.c, t.cur.p))
      = some (2, false, false, true, 0o101) := by decide

/-- `AAA 1` -/
theorem test_aaa :
    out 0o172401 (at100 { z with a := 0o77777 } [])
      (fun t => (t.cur.a, t.cur.q, t.cur.o, t.cur.c, t.cur.p))
      = some (0o100000, true, true, false, 0o101) := by decide

/-- `AAT 13` -/
theorem test_aat :
    out 0o173013 (at100 { z with t := 1 } [])
      (fun t => (t.cur.t, t.cur.q, t.cur.o, t.cur.c, t.cur.p))
      = some (0o14, false, false, false, 0o101) := by decide

/-- `AAX -1` -/
theorem test_aax :
    out 0o173777 (at100 { z with x := 0o100000 } [])
      (fun t => (t.cur.x, t.cur.q, t.cur.o, t.cur.c, t.cur.p))
      = some (0o77777, true, true, true, 0o101) := by decide

/-- `RADD ADC SD DA` -/
theorem test_radd_adc :
    out 0o147015 (at100 { z with a := 0o177777, d := 0, sts := 0o100 } [])
      (fun t => (t.cur.a, t.cur.q, t.cur.o, t.cur.c, t.cur.p))
      = some (0, false, false, true, 0o101) := by decide

/-- `RADD ADC AD1 SD DA` -/
theorem test_radd_adc_ad1 :
    out 0o147415 (at100 { z with a := 1, d := 2, sts := 0o100 } [])
      (fun t => (t.cur.a, t.cur.q, t.cur.o, t.cur.c, t.cur.p))
      = some (1, false, false, true, 0o101) := by decide

/-- `COPY SA DD` -/
theorem test_copy :
    out 0o146151 (at100 { z with a := 0o4321 } [])
      (fun t => (t.cur.a, t.cur.d, t.cur.q, t.cur.o, t.cur.c, t.cur.p))
      = some (0o4321, 0o4321, false, false, false, 0o101) := by decide

/-- `RCLR DA` -/
theorem test_rclr :
    out 0o146105 (at100 { z with a := 0o7777, sts := 0o160 } [])
      (fun t => (t.cur.a, t.cur.q, t.cur.o, t.cur.c, t.cur.p))
      = some (0, false, true, false, 0o101) := by decide

/-- `RINC DA` -/
theorem test_rinc :
    out 0o146405 (at100 { z with a := 0o77777 } [])
      (fun t => (t.cur.a, t.cur.q, t.cur.o, t.cur.c, t.cur.p))
      = some (0o100000, true, true, false, 0o101) := by decide

/-- `RDCR DB` -/
theorem test_rdcr :
    out 0o146203 (at100 { z with b := 0 } [])
      (fun t => (t.cur.b, t.cur.q, t.cur.o, t.cur.c, t.cur.p))
      = some (0o177777, false, false, false, 0o101) := by decide

/-- `RSUB ST DB` -/
theorem test_rsub :
    out 0o146663 (at100 { z with b := 5, t := 7 } [])
      (fun t => (t.cur.b, t.cur.t, t.cur.q, t.cur.o, t.cur.c, t.cur.p))
      = some (0o177776, 7, false, false, false, 0o101) := by decide

/-- `EXIT` -/
theorem test_exit :
    out 0o146142 (at100 { z with l := 0o1234, sts := 0o140 } [])
      (fun t => (t.cur.q, t.cur.o, t.cur.c, t.cur.p))
      = some (false, true, false, 0o1234) := by decide

/-- `SWAP CM1 SA DD` -/
theorem test_swap_cm1 :
    out 0o144251 (at100 { z with a := 0o17, d := 3 } [])
      (fun t => (t.cur.a, t.cur.d, t.cur.p))
      = some (3, 0o177760, 0o101) := by decide

/-- `SWAP SA DP` -/
theorem test_swap_to_p :
    out 0o144052 (at100 { z with a := 0o2000 } [])
      (fun t => (t.cur.a, t.cur.p))
      = some (0o100, 0o2000) := by decide

/-- `RAND CM1 ST DB` -/
theorem test_rand :
    out 0o144663 (at100 { z with t := 0o377, b := 0o123456 } [])
      (fun t => (t.cur.t, t.cur.b, t.cur.p))
      = some (0o377, 0o123400, 0o101) := by decide

/-- `REXO ST DB` -/
theorem test_rexo :
    out 0o145063 (at100 { z with t := 0o177777, b := 0o123456 } [])
      (fun t => (t.cur.t, t.cur.b, t.cur.p))
      = some (0o177777, 0o54321, 0o101) := by decide

/-- `RORA CM1 CLD SA DA` -/
theorem test_rora :
    out 0o145755 (at100 { z with a := 0o377 } [])
      (fun t => (t.cur.a, t.cur.p))
      = some (0o177400, 0o101) := by decide

/-- `RMPY SA DX`: the exact product of the two most negative numbers -/
theorem test_rmpy :
    let r := z.setAd (BitVec.ofInt 32 (mulExact 0o100000 0o100000))
    (r.a, r.d) = (0o40000, 0) := by decide

/-- `RDIV SX` -/
theorem test_rdiv :
    let r := { z with a := 0o177777, d := 0o177771 }.divided 2 0 0 0
    (r.a, r.d, r.z) = (0o177775, 0o177777, false) := by decide

/-- `RDIV SX`, divisor 0 -/
theorem test_rdiv_by_zero : ({ z with d := 5 }.divided 0 0o11 0o22 0).z = true := by decide

/-- `MIX3` -/
theorem test_mix3 :
    out 0o143200 (at100 { z with a := 0 } [])
      (fun t => (t.cur.a, t.cur.x, t.cur.p))
      = some (0, 0o177775, 0o101) := by decide

/-- `BSET ZRO SSO` -/
theorem test_bset_zro :
    out 0o174050 (at100 { z with sts := 0o160 } []) (fun t => (t.cur.sts, t.cur.p)) = some (0o120, 0o101) := by decide

/-- `BSET ONE SSK` -/
theorem test_bset_one : out 0o174220 (at100 z []) (fun t => (t.cur.sts, t.cur.p)) = some (4, 0o101) := by decide

/-- `BSET BCM 170 DA` -/
theorem test_bset_bcm :
    out 0o174575 (at100 { z with a := 0 } [])
      (fun t => (t.cur.a, t.cur.k, t.cur.p))
      = some (0o100000, false, 0o101) := by decide

/-- `BSET BAC 0 DX` -/
theorem test_bset_bac :
    out 0o174607 (at100 { z with x := 0o177776, sts := 4 } [])
      (fun t => (t.cur.x, t.cur.k, t.cur.p))
      = some (0o177777, true, 0o101) := by decide

/-- `BSKP ONE SSC` -/
theorem test_bskp_one :
    out 0o175260 (at100 { z with sts := 0o100 } [])
      (fun t => (t.cur.c, t.cur.p))
      = some (true, 0o102) := by decide

/-- `BSKP ZRO 170 DA` -/
theorem test_bskp_zro :
    out 0o175175 (at100 { z with a := 0o77777 } [])
      (fun t => (t.cur.p))
      = some (0o102) := by decide

/-- `BSKP BCM 0 DA` -/
theorem test_bskp_bcm :
    out 0o175405 (at100 { z with a := 1 } [])
      (fun t => (t.cur.k, t.cur.p))
      = some (false, 0o102) := by decide

/-- `BSKP BAC 0 DA` -/
theorem test_bskp_bac :
    out 0o175605 (at100 { z with a := 1, sts := 4 } [])
      (fun t => (t.cur.k, t.cur.p))
      = some (true, 0o102) := by decide

/-- `BSTC SSK` -/
theorem test_bstc_k : out 0o176020 (at100 z []) (fun t => (t.cur.k, t.cur.p)) = some (true, 0o101) := by decide

/-- `BSTA 0 DX` -/
theorem test_bsta :
    out 0o176207 (at100 { z with x := 0, sts := 4 } [])
      (fun t => (t.cur.x, t.cur.k, t.cur.p))
      = some (1, false, 0o101) := by decide

/-- `BLDC 170 DA` -/
theorem test_bldc :
    out 0o176575 (at100 { z with a := 0o100000, sts := 4 } [])
      (fun t => (t.cur.a, t.cur.k, t.cur.p))
      = some (0o100000, false, 0o101) := by decide

/-- `BLDA SSC` -/
theorem test_blda :
    out 0o176660 (at100 { z with sts := 0o100 } [])
      (fun t => (t.cur.k, t.cur.c, t.cur.p))
      = some (true, true, 0o101) := by decide

/-- `BANC 10 DD` -/
theorem test_banc :
    out 0o177011 (at100 { z with d := 0, sts := 4 } [])
      (fun t => (t.cur.k, t.cur.p))
      = some (true, 0o101) := by decide

/-- `BAND 10 DD` -/
theorem test_band :
    out 0o177211 (at100 { z with d := 0, sts := 4 } [])
      (fun t => (t.cur.k, t.cur.p))
      = some (false, 0o101) := by decide

/-- `BORC 60 DX` -/
theorem test_borc :
    out 0o177467 (at100 { z with x := 0 } [])
      (fun t => (t.cur.x, t.cur.k, t.cur.p))
      = some (0, true, 0o101) := by decide

/-- `BORA 170 DX` -/
theorem test_bora :
    out 0o177777 (at100 { z with x := 0o100000 } [])
      (fun t => (t.cur.x, t.cur.k, t.cur.p))
      = some (0o100000, true, 0o101) := by decide

/-- `SHT SHR 1` -/
theorem test_sht_arith_right :
    out 0o154077 (at100 { z with t := 0o100001 } [])
      (fun t => (t.cur.t, t.cur.m, t.cur.p))
      = some (0o140000, true, 0o101) := by decide

/-- `SHD LIN SHR 1` -/
theorem test_shd_link_right :
    out 0o157277 (at100 { z with d := 1 } [])
      (fun t => (t.cur.d, t.cur.m, t.cur.p))
      = some (0, true, 0o101) := by decide

/-- `SHA SHR 2` -/
theorem test_sha_right : out 0o154476 (at100 { z with a := 0o177770 } []) (fun t => (t.cur.a, t.cur.m)) = some (0o177776, false) := by
  decide

/-- `SHA LIN 21` -/
theorem test_sha_link_17 :
    out 0o157421 (at100 { z with a := 0o100001 } [])
      (fun t => (t.cur.a, t.cur.m, t.cur.p))
      = some (0o100001, false, 0o101) := by decide

/-- `SAD SHR 1` -/
theorem test_sad :
    out 0o154677 (at100 { z with a := 0o100000, d := 1 } [])
      (fun t => (t.cur.a, t.cur.d, t.cur.m, t.cur.p))
      = some (0o140000, 0, true, 0o101) := by decide

/-- `LBYT` -/
theorem test_lbyt :
    out 0o142200 (at100 { z with t := 0o1000, x := 0o177777 } [(0o100777, 0o11022)])
      (fun t => (t.cur.a, t.cur.p))
      = some (0o22, 0o101) := by decide

/-- `SBYT` -/
theorem test_sbyt :
    out 0o142600 (at100 { z with t := 0o1000, x := 2, a := 0o177515 } [(0o1001, 0o40502)])
      (fun t => (t.mem.wordAt 0o1001, t.cur.p))
      = some (0o46502, 0o101) := by decide

/-- `BFILL` -/
theorem test_bfill :
    out 0o140130 (at100 { z with x := 0o2000, t := 0o100003, a := 0o40 }
        [(0o2000, 0o125252), (0o2001, 0o125252), (0o2002, 0o125252)])
      (fun t => (t.cur.x, t.cur.t, t.mem.wordAt 0o2000, t.mem.wordAt 0o2001, t.mem.wordAt 0o2002, t.cur.p))
      = some (0o2002, 0, 0o125040, 0o20040, 0o125252, 0o101) := by decide

/-- `MOVB` -/
theorem test_movb :
    out 0o140131 (at100 { z with a := 0o2000, d := 4, x := 0o2001, t := 4 }
        [(0o2000, 0o40502), (0o2001, 0o41504), (0o2002, 0o42506)])
      (fun t => (t.cur.a, t.cur.d, t.cur.x, t.cur.t, t.mem.wordAt 0o2000, t.mem.wordAt 0o2001, t.mem.wordAt 0o2002,
        t.cur.p))
      = some (0o2002, 0, 0o2003, 4, 0o40502, 0o40502, 0o41504, 0o101) := by decide

/-- `MOVBF` -/
theorem test_movbf :
    out 0o140132 (at100 { z with a := 0o2000, d := 4, x := 0o2001, t := 4 }
        [(0o2000, 0o40502), (0o2001, 0o41504), (0o2002, 0o42506)])
      (fun t => (t.cur.a, t.cur.d, t.cur.x, t.cur.t, t.mem.wordAt 0o2000, t.mem.wordAt 0o2001, t.mem.wordAt 0o2002,
        t.cur.p))
      = some (0o2002, 0, 0o2003, 4, 0o40502, 0o40502, 0o40502, 0o101) := by decide

/-- STS of level 3 as TRA reads it, with the interrupt system on (10_state.md R41): bit 12 is open. -/
theorem test_sts_word :
    ({ onLevel 3 { z with sts := 0o20 } [] with ioni := true }.stsWord 3) &&& 0o167777 = 0o101420 := by
  have h : ∀ b : BitVec 1, (1#1 ++ 0#1 ++ 0#1 ++ b ++ 3#4 ++ 0o20#8 : Word) &&& 0o167777 = 0o101420 := by decide
  exact h _

/-- `TRR STS` -/
theorem test_trr_sts :
    out 0o150101 (at100 { z with a := 0o177452, sts := 0 } [])
      (fun t => (t.cur.sts, t.pil, t.ioni, t.cur.p))
      = some (0o52, 0, false, 0o101) := by decide

/-- `MCL STS` -/
theorem test_mcl_sts :
    out 0o150201 (at100 { z with a := 0o100, sts := 0o140 } [])
      (fun t => (t.cur.sts, t.cur.p))
      = some (0o40, 0o101) := by decide

/-- `MST STS` -/
theorem test_mst_sts :
    out 0o150301 (at100 { z with a := 4, sts := 0o100 } [])
      (fun t => (t.cur.sts, t.cur.p))
      = some (0o104, 0o101) := by decide

/-- `TRA IIC` -/
theorem test_tra_iic :
    out 0o150005 { at100 { z with a := 0o7777 } [] with iic := 4 }
      (fun t => (t.cur.a, t.iic, t.cur.p))
      = some (4, 0, 0o101) := by decide

/-- `TRR PID` -/
theorem test_trr_pid :
    out 0o150106 { at100 { z with a := 0o12 } [] with pid := 0, ioni := false }
      (fun t => (t.pid, t.pil, t.cur.p))
      = some (0o12, 0, 0o101) := by decide

/-- `WAIT` -/
theorem test_wait_stops :
    out 0o151000 { at100 z [] with ioni := false }
      (fun t => (t.run, t.cur.p))
      = some (.stopped, 0o101) := by decide

/-- `WAIT 1` -/
theorem test_wait_level_0 :
    out 0o151001 { at100 z [] with ioni := true, pil := 0 }
      (fun t => (t.run, t.pid, t.cur.p))
      = some (.running, 0, 0o101) := by decide

/-- `MON 377` -/
theorem test_mon_not_enabled :
    out 0o153377 { at100 z [] with iie := 0 }
      (fun t => ((t.level 14).t, t.pid, t.iic, t.cur.p))
      = some (0o177777, 0, 0, 0o101) := by decide

/-- `MON 177` -/
theorem test_mon_latched :
    out 0o153177 { at100 z [] with iie := 2, ioni := false }
      (fun t => ((t.level 14).t, t.pid, t.iic, t.pvl, t.pil, t.cur.p))
      = some (0o177, 0o40000, 1, 0, 0, 0o101) := by decide

/-- `IRR 0 DP` -/
theorem test_irr_own_p : out 0o153602 (at100 z []) (fun t => (t.cur.a, t.cur.p)) = some (0o101, 0o101) := by decide

/-- `IRW 0 DP` -/
theorem test_irw_own_p :
    out 0o153402 (at100 { z with a := 0o2000 } [])
      (fun t => (t.cur.p))
      = some (0o2000) := by decide

/-- `IRW 30 0` -/
theorem test_irw_sts :
    out 0o153430 (at100 { z with a := 0o177777 } [])
      (fun t => ((t.level 3).sts, t.cur.p))
      = some (0o377, 0o101) := by decide

/-- `LRB 0` -/
theorem test_lrb_own :
    out 0o152600 (at100 { z with x := 0o2000 }
        [(0o2000, 0o7777), (0o2001, 0o11), (0o2002, 0o22), (0o2003, 0o33), (0o2004, 0o44), (0o2005, 0o55),
          (0o2006, 0o401), (0o2007, 0o77)])
      (fun t => (t.cur.x, t.cur.t, t.cur.a, t.cur.d, t.cur.l, t.cur.sts, t.cur.b, t.cur.p))
      = some (0o11, 0o22, 0o33, 0o44, 0o55, 1, 0o77, 0o101) := by decide

/-- `LDATX 30` -/
theorem test_ldatx :
    out 0o143330 (at100 { z with t := 2, x := 0o1000 } [(0o401003, 0o1234)])
      (fun t => (t.cur.a, t.cur.p))
      = some (0o1234, 0o101) := by decide

/-- `LDATX 0 in the page-table range` -/
theorem test_ldatx_page_table :
    out 0o143300 { at100 { z with t := 0, x := 0o177024 } [(0o177024, 1)] with pt := Memory.writeWord [] 0o24 0o160003 }
      (fun t => (t.cur.a, t.cur.p))
      = some (0o160003, 0o101) := by decide

/-- `LDXTX 00` -/
theorem test_ldxtx :
    out 0o143301 (at100 { z with t := 2, x := 0o1000 } [(0o401000, 0o5010)])
      (fun t => (t.cur.x, t.cur.p))
      = some (0o5010, 0o101) := by decide

/-- `LDDTX 20` -/
theorem test_lddtx :
    out 0o143322 (at100 { z with t := 2, x := 0o1000 } [(0o401002, 0o11), (0o401003, 0o22)])
      (fun t => (t.cur.a, t.cur.d, t.cur.p))
      = some (0o11, 0o22, 0o101) := by decide

/-- `LDBTX 10` -/
theorem test_ldbtx :
    out 0o143313 (at100 { z with t := 2, x := 0o1000 } [(0o401001, 0o100001)])
      (fun t => (t.cur.b, t.cur.p))
      = some (0o177002, 0o101) := by decide

/-- `STATX 20` -/
theorem test_statx :
    out 0o143324 (at100 { z with t := 2, x := 0o1000, a := 0o7070 } [])
      (fun t => (t.mem.wordAt 0o401002, t.cur.p))
      = some (0o7070, 0o101) := by decide

/-- `STZTX 70` -/
theorem test_stztx :
    out 0o143375 (at100 { z with t := 2, x := 0o1000 } [(0o401007, 0o5555)])
      (fun t => (t.mem.wordAt 0o401007, t.cur.p))
      = some (0, 0o101) := by decide

/-- `STDTX 00` -/
theorem test_stdtx :
    out 0o143306 (at100 { z with t := 2, x := 0o1000, a := 1, d := 2 } [])
      (fun t => (t.mem.wordAt 0o401000, t.mem.wordAt 0o401001, t.cur.p))
      = some (1, 2, 0o101) := by decide

/-- `LBIT` -/
theorem test_lbit :
    out 0o140510 (at100 { z with x := 0o2000, a := 0o23 } [(0o2001, 0o10)])
      (fun t => (t.cur.k, t.cur.p))
      = some (true, 0o101) := by decide

/-- `SBIT` -/
theorem test_sbit :
    out 0o140512 (at100 { z with x := 0o2000, a := 0o37, sts := 4 } [(0o2001, 1)])
      (fun t => (t.mem.wordAt 0o2001, t.cur.p))
      = some (0o100001, 0o101) := by decide

/-- `LBITP` -/
theorem test_lbitp :
    out 0o140511 (at100 { z with t := 2, x := 0o1000, a := 0o20 } [(0o401001, 1)])
      (fun t => (t.cur.k, t.cur.p))
      = some (true, 0o101) := by decide

/-- `SBITP` -/
theorem test_sbitp :
    out 0o140513 (at100 { z with t := 2, x := 0o1000, a := 0o17, sts := 4 } [(0o401000, 0)])
      (fun t => (t.mem.wordAt 0o401000, t.cur.p))
      = some (0o100000, 0o101) := by decide

/-- `LBYTP` -/
theorem test_lbytp :
    out 0o140514 (at100 { z with d := 1, t := 0o3000, x := 5 } [(0o203002, 0o41101)])
      (fun t => (t.cur.a, t.cur.p))
      = some (0o101, 0o101) := by decide

/-- `SBYTP` -/
theorem test_sbytp :
    out 0o140515 (at100 { z with d := 1, t := 0o3000, x := 4, a := 0o177532 } [(0o203002, 0o41101)])
      (fun t => (t.mem.wordAt 0o203002, t.cur.p))
      = some (0o55101, 0o101) := by decide

/-- `TSETP` -/
theorem test_tsetp :
    out 0o140516 (at100 { z with t := 1, x := 0o500 } [(0o200500, 0)])
      (fun t => (t.cur.a, t.mem.wordAt 0o200500, t.cur.p))
      = some (0, 0o177777, 0o101) := by decide

/-- `RDUSP` -/
theorem test_rdusp :
    out 0o140517 (at100 { z with t := 1, x := 0o500 } [(0o200500, 0o123456)])
      (fun t => (t.cur.a, t.cur.p))
      = some (0o123456, 0o101) := by decide

/-- `LASB 20` -/
theorem test_lasb :
    out 0o140720 { at100 { z with b := 0o4000 } [(0o204002, 0o777)] with stbnk := 1 }
      (fun t => (t.cur.a, t.cur.p))
      = some (0o777, 0o101) := by decide

/-- `SASB 0` -/
theorem test_sasb :
    out 0o140701 { at100 { z with b := 0o4000, a := 0o123 } [] with stbnk := 1 }
      (fun t => (t.mem.wordAt 0o204000, t.cur.p))
      = some (0o123, 0o101) := by decide

/-- `LACB 10` -/
theorem test_lacb :
    out 0o140712 { at100 { z with b := 0o4000 } [(0o604001, 0o555)] with cmbnk := 3 }
      (fun t => (t.cur.a, t.cur.p))
      = some (0o555, 0o101) := by decide

/-- `SACB 70` -/
theorem test_sacb :
    out 0o140773 { at100 { z with b := 0o177777, a := 0o321 } [] with cmbnk := 3 }
      (fun t => (t.mem.wordAt 0o600006, t.cur.p))
      = some (0o321, 0o101) := by decide

/-- `LXSB 30` -/
theorem test_lxsb :
    out 0o140734 { at100 { z with b := 0o4000 } [(0o204003, 0o7070)] with stbnk := 1 }
      (fun t => (t.cur.x, t.cur.p))
      = some (0o7070, 0o101) := by decide

/-- `LXCB 0` -/
theorem test_lxcb :
    out 0o140705 { at100 { z with b := 0o4000 } [(0o604000, 0o42)] with cmbnk := 3 }
      (fun t => (t.cur.x, t.cur.p))
      = some (0o42, 0o101) := by decide

/-- `SZSB 20` -/
theorem test_szsb :
    out 0o140726 { at100 { z with b := 0o4000 } [(0o204002, 0o777)] with stbnk := 1 }
      (fun t => (t.mem.wordAt 0o204002, t.cur.p))
      = some (0, 0o101) := by decide

/-- `SZCB 70` -/
theorem test_szcb :
    out 0o140777 { at100 { z with b := 0o4000 } [(0o604007, 1)] with cmbnk := 3 }
      (fun t => (t.mem.wordAt 0o604007, t.cur.p))
      = some (0, 0o101) := by decide

/-- `SETPT, X = 0` -/
theorem test_setpt_end : out 0o140300 (at100 { z with x := 0 } []) (fun t => (t.cur.p)) = some (0o101) := by decide

/-- `MOVEW 0, L = 0` -/
theorem test_movew_nothing :
    out 0o143100 (at100 { z with l := 0 } [])
      (fun t => (t.cur.p))
      = some (0o101) := by decide

/-- `SRB 100`: the words before STS -/
theorem test_srb :
    (((at100 z []).setLevel 8
        { sts := 0o101, d := 0o55, p := 0o11, b := 0o77, l := 0o66, a := 0o44, t := 0o33, x := 0o22 }).blockWords 8).take 6
      = [0o11, 0o22, 0o33, 0o44, 0o55, 0o66] := by decide

/-! ### System control (2.2, 2.8) -/

theorem test_iof : out 0o150401 { at100 z [] with ioni := true } (fun t => (t.ioni, t.cur.p)) = some (false, 0o101) := by
  decide

theorem test_ion : out 0o150402 (at100 z []) (fun t => (t.ioni, t.cur.p)) = some (true, 0o101) := by decide

theorem test_pof :
    out 0o150404 (mapped 3 [] (at100 z [])) (fun t => (t.poni, t.cur.p)) = some (false, 0o101) := by decide

theorem test_pon : out 0o150410 (at100 z []) (fun t => (t.poni, t.ioni)) = some (true, false) := by decide

theorem test_pion : out 0o150412 (at100 z []) (fun t => (t.poni, t.ioni)) = some (true, true) := by decide

theorem test_piof :
    out 0o150405 { mapped 2 [] (at100 z []) with ioni := true } (fun t => (t.poni, t.ioni)) = some (false, false) := by
  decide

theorem test_sex : out 0o150406 (at100 z []) (fun t => (t.sexi, t.cur.p)) = some (true, 0o101) := by decide

theorem test_rex :
    out 0o150407 { at100 z [] with sexi := true } (fun t => (t.sexi, t.cur.p)) = some (false, 0o101) := by decide

theorem test_opcom : out 0o150400 (at100 z []) (fun t => (t.outbox, t.cur.p)) = some ([.opcom], 0o101) := by decide

/-- `IOF` in a user program -/
theorem test_iof_user :
    out 0o150401 (trapping (mapped 0 [] (at100 z [])) 0o100) (fun t => (t.ioni, trapped t))
      = some (true, 0o100, 0o40000, 6, 0) := by decide

/-- `IOF` in ring 2 -/
theorem test_iof_ring_2 :
    out 0o150401 (trapping (mapped 2 [] (at100 z [])) 0o100) (fun t => (t.ioni, t.cur.p)) = some (false, 0o101) := by
  decide

/-- `LDA *10`, page not in memory -/
theorem test_lda_page_fault :
    out 0o044010 (trapping (mapped 3 [(.read, 0o110, .pageFault)] (at100 { z with a := 7 } [])) 0o10)
      (fun t => (t.cur.a, trapped t)) = some (7, 0o100, 0o40000, 3, 0) := by decide

/-- A word written through the translation: WIP and PGU are set (R96). -/
theorem test_sta_marks :
    out 0o004010 (mapped 0 [(.write, 0o110, .ok (.phys 0o5000) (some 2) (some 2))] (at100 { z with a := 9 } []))
      (fun t => (t.mem.wordAt 0o5000, t.pt.wordAt 2, t.cur.p)) = some (9, 0o14000, 0o101) := by decide

/-- An unassigned word, the fault takeable -/
theorem test_unassigned_traps :
    out 0o150403 (trapping (at100 z []) 0o20) trapped = some (0o100, 0o40000, 4, 0) := by decide

/-- The same, IIE[4] = 0 -/
theorem test_unassigned_not_enabled :
    fault 0o150403 (trapping (at100 z []) 0) = some (.trapNotTakeable .illegalInstruction) := by decide

/-- The same, interrupt system off -/
theorem test_unassigned_off :
    fault 0o150403 { trapping (at100 z []) 0o20 with ioni := false } = some (.trapNotTakeable .illegalInstruction) := by
  decide

/-- `LDATX 0` beyond memory, `PHYS_WORDS` = 2^18 -/
theorem test_ldatx_beyond_memory :
    out 0o143300 { trapping (at100 { z with t := 7 } []) 0o1000 with
        params := { Params.default with physWords := 262144 } } trapped = some (0o100, 0o40000, 9, 0) := by decide

/-- `IOT` -/
theorem test_iot : out 0o160000 (trapping (at100 z []) 0o20) trapped = some (0o100, 0o40000, 4, 0) := by decide

/-- EXR of EXR sets Z, and the error flag requests level 14 (R270, R708). -/
theorem test_error_flag :
    out 0o140650 (trapping (at100 { z with a := 0o140650 } []) 0o40) (fun t => (t.cur.z, trapped t))
      = some (true, 0o101, 0o40000, 5, 0) := by decide

/-- External request and level change -/
theorem test_level_change :
    out 0o170407 { at100 z [] with ioni := true, pie := 0o2001, pid := 0o2000 }
      (fun t => (t.pil, (t.level 10).a, (t.level 10).p, (t.level 0).p)) = some (10, 7, 1, 0o100) := by decide

/-- `WAIT` on level 3 clears PID[3] (R509). -/
theorem test_wait_gives_up :
    out 0o151000 { onLevel 3 z [] with ioni := true, pie := 0o10, pid := 0o10 }
      (fun t => (t.pid, (t.level 3).p, t.front.pil)) = some (0, 0o101, 0) := by decide

theorem test_tra_pie :
    out 0o150007 { at100 z [] with pie := 0o40002 } (fun t => (t.cur.a, t.cur.p)) = some (0o40002, 0o101) := by decide

/-- A PCR is that of the level in bits 6-3 (R534, log 35). -/
theorem test_trr_pcr :
    out 0o150103 (at100 { z with a := 0o1431 } []) (fun t => (t.pcrOf 3, t.pcrOf 0)) = some (0o1431, 0) := by decide

/-- EXAM and DEPO: bank A, address D (R550, R551). -/
theorem test_exam :
    out 0o150416 (at100 { z with a := 2, d := 0o10 } [(0o400010, 0o77)]) (fun t => (t.cur.t, t.cur.p))
      = some (0o77, 0o101) := by decide

theorem test_depo :
    out 0o150417 (at100 { z with a := 2, d := 0o10, t := 0o55 } []) (fun t => (t.mem.wordAt 0o400010, t.cur.p))
      = some (0o55, 0o101) := by decide

theorem test_rdus :
    out 0o140127 (at100 { z with t := 0o500 } [(0o500, 0o66)]) (fun t => (t.cur.a, t.cur.p)) = some (0o66, 0o101) := by
  decide

theorem test_tset :
    out 0o140123 (at100 { z with t := 0o500 } [(0o500, 0o66)]) (fun t => (t.cur.a, t.mem.wordAt 0o500))
      = some (0o66, 0o177777) := by decide

theorem test_lwcs : out 0o143500 (at100 z []) (fun t => t.cur.p) = some 0o101 := by decide

/-- VERSN (R555) -/
theorem test_versn :
    out 0o140133 { at100 { z with a := 0o1000 } [] with params := { Params.default with
        versionInfo := ⟨0o1234, 5, 0o17, Vector.replicate 16 0⟩ } }
      (fun t => (t.cur.a, t.cur.t, t.cur.p)) = some (0o24705, 0o17, 0o101) := by decide

/-! ### The stops -/

theorem test_geco : refusal 0o142700 (at100 z []) = some .gecoUndocumented := by decide

theorem test_clnreent : refusal 0o140302 (at100 z []) = some (.sintranUndefined "CLNREENT") := by decide

/-- `BSET ONE 100` (STS bit 8) -/
theorem test_sts_upper_bit : refusal 0o174300 (at100 z []) = some (.stsUpperBit 8) := by decide

/-- Decimal, ASCII code 101 -/
theorem test_ascii_code_unassigned :
    refusal 0o140124 (at100 { z with d := 0o24003 } []) = some (.asciiCodeUnassigned 5) := by decide

/-! ### Stack (2.3) -/

/-- `ENTR`, new STP = SMAX exactly -/
theorem test_entr :
    out 0o140135 (at100 { z with b := 0o10200, l := 0o1235 } [(0o101, 0o7300), (0o10002, 0o10300), (0o10003, 0o20000)])
      (fun t => (t.mem.wordAt 0o10300, t.mem.wordAt 0o10301, t.mem.wordAt 0o10302, t.mem.wordAt 0o10303, t.cur.b, t.cur.p))
      = some (0o1236, 0o10200, 0o20000, 0o20000, 0o10500, 0o103) := by decide

/-- `ENTR`, one word too many -/
theorem test_entr_overflow :
    out 0o140135 (at100 { z with b := 0o10200, l := 0o1235 } [(0o101, 0o7301), (0o10002, 0o10300), (0o10003, 0o20000)])
      (fun t => (t.mem.wordAt 0o10300, t.cur.b, t.cur.p)) = some (0, 0o10200, 0o102) := by decide

/-- `INIT`, room enough -/
theorem test_init :
    out 0o140134 (at100 { z with b := 0o177, l := 0o500 } [(0o101, 0o100), (0o102, 0o40000), (0o103, 0o2000)])
      (fun t => (t.mem.wordAt 0o40000, t.mem.wordAt 0o40001, t.mem.wordAt 0o40002, t.mem.wordAt 0o40003, t.cur.b, t.cur.p))
      = some (0o501, 0o177, 0o40300, 0o42000, 0o40200, 0o107) := by decide

/-- `INIT`, maxsize = 0o277 -/
theorem test_init_overflow :
    out 0o140134 (at100 { z with b := 0o177, l := 0o500 } [(0o101, 0o100), (0o102, 0o40000), (0o103, 0o277)])
      (fun t => (t.mem.wordAt 0o40000, t.cur.b, t.cur.p)) = some (0, 0o177, 0o106) := by decide

/-- `LEAVE` -/
theorem test_leave :
    out 0o140136 (at100 { z with b := 0o10500, a := 7 } [(0o10300, 0o1236), (0o10301, 0o10200)])
      (fun t => (t.cur.b, t.cur.p, t.cur.a)) = some (0o10200, 0o1236, 7) := by decide

/-- `ELEAV` -/
theorem test_eleav :
    out 0o140137 (at100 { z with b := 0o10500, a := 7 } [(0o10300, 0o1236), (0o10301, 0o10200)])
      (fun t => (t.mem.wordAt 0o10005, t.mem.wordAt 0o10300, t.cur.b, t.cur.p)) = some (7, 0o1235, 0o10200, 0o1235) := by
  decide

/-! ### Decimal (2.4) -/

/-- `ADDD`, unsigned result -/
theorem test_addd :
    out 0o140120 (at100 { z with a := 0o2000, d := 0o20004, x := 0o2100, t := 4 } [(0o2000, 0o454), (0o2100, 0o235)])
      (fun t => (t.mem.wordAt 0o2000, t.cur.d, t.cur.p)) = some (0o77, 0o20004, 0o102) := by decide

/-- `ADDD`, overflow -/
theorem test_addd_overflow :
    out 0o140120 (at100 { z with a := 0o2000, d := 2, x := 0o2100, t := 2 } [(0o2000, 0o116000), (0o2100, 0o16000)])
      (fun t => (t.cur.d, t.cur.p)) = some (3, 0o101) := by decide

/-- `SUBD` -/
theorem test_subd :
    out 0o140121 (at100 { z with a := 0o2000, d := 4, x := 0o2100, t := 4 } [(0o2000, 0o454), (0o2100, 0o235)])
      (fun t => (t.mem.wordAt 0o2000, t.cur.p)) = some (0o1034, 0o102) := by decide

/-- `COMD`, operands exchanged -/
theorem test_comd :
    out 0o140122 (at100 { z with a := 0o2100, d := 4, x := 0o2000, t := 4 } [(0o2000, 0o454), (0o2100, 0o235)])
      (fun t => (t.cur.a, t.cur.p)) = some (0o177777, 0o102) := by decide

/-- `COMD`, illegal digit in op1 -/
theorem test_comd_illegal :
    out 0o140122 (at100 { z with a := 0o2000, d := 4, x := 0o2100, t := 4 } [(0o2000, 0o5054), (0o2100, 0o235)])
      (fun t => (t.cur.a, t.cur.d, t.cur.p)) = some (0o2000, 2, 0o101) := by decide

/-- `PACK`, separate trailing sign -/
theorem test_pack :
    out 0o140124 (at100 { z with a := 0o2000, d := 0o4003, x := 0o2100, t := 4 } [(0o2000, 0o30462), (0o2001, 0o26400)])
      (fun t => (t.mem.wordAt 0o2100, t.cur.p)) = some (0o455, 0o102) := by decide

/-- `PACK`, illegal byte -/
theorem test_pack_illegal :
    out 0o140124 (at100 { z with a := 0o2000, d := 0o4003, x := 0o2100, t := 4 } [(0o2000, 0o30472), (0o2001, 0o26400)])
      (fun t => (t.cur.a, t.cur.d, t.cur.p)) = some (0o2000, 0o104002, 0o101) := by decide

/-- `UPACK`, separate trailing sign -/
theorem test_upack :
    out 0o140125 (at100 { z with a := 0o2000, d := 4, x := 0o2100, t := 0o4003 } [(0o2000, 0o454), (0o2101, 0o377)])
      (fun t => (t.mem.wordAt 0o2100, t.mem.wordAt 0o2101, t.cur.p)) = some (0o30462, 0o25777, 0o102) := by decide

/-- `UPACK`, embedded trailing sign -/
theorem test_upack_embedded :
    out 0o140125 (at100 { z with a := 0o2000, d := 4, x := 0o2100, t := 2 } [(0o2000, 0o455)])
      (fun t => (t.mem.wordAt 0o2100, t.cur.p)) = some (0o30513, 0o102) := by decide

/-- `SHDE`, right by one, rounding -/
theorem test_shde_right :
    out 0o140126 (at100 { z with a := 0o2000, d := 4, x := 0o2100, t := 0o2044 } [(0o2000, 0o534)])
      (fun t => (t.mem.wordAt 0o2100, t.cur.p)) = some (0o54, 0o102) := by decide

/-- `SHDE`, left by one -/
theorem test_shde_left :
    out 0o140126 (at100 { z with a := 0o2000, d := 0o44, x := 0o2100, t := 4 } [(0o2000, 0o454)])
      (fun t => (t.mem.wordAt 0o2100, t.cur.p)) = some (0o11014, 0o102) := by decide

/-! ### Floating point: words moved, and the flags NLZ leaves (2.5) -/

theorem test_ldf :
    out 0o034010 (at100 z [(0o110, 1), (0o111, 2), (0o112, 3)]) (fun t => (t.cur.t, t.cur.a, t.cur.d)) = some (1, 2, 3) := by
  decide

/-- STF with the 32-bit format -/
theorem test_stf32 :
    out 0o030010 { at100 { z with t := 7, a := 1, d := 2 } [] with params := { Params.default with fpFormat := .fp32 } }
      (fun t => (t.mem.wordAt 0o110, t.mem.wordAt 0o111, t.mem.wordAt 0o112)) = some (1, 2, 0) := by decide

theorem test_nlz :
    out 0o151420 (at100 { z with sts := 0o177, a := 1 } []) (fun t => (t.cur.sts, t.cur.p)) = some (0o177, 0o101) := by
  decide

/-! ### Word moves, global pointers, page-table lists (2.6, 2.7) -/

/-- `MOVEW 0`, step 1 -/
theorem test_movew_step :
    out 0o143100 (at100 { z with d := 0o1000, t := 0o2000, l := 3 } [(0o1000, 0o11)])
      (fun t => (t.mem.wordAt 0o2000, t.cur.d, t.cur.t, t.cur.l, t.cur.p))
      = some (0o11, 0o1001, 0o2001, 2, 0o100) := by decide

/-- MOVEW 10, the last word: both addresses overflow into their banks (R420). -/
theorem test_movew10_last :
    out 0o143110 (at100 { z with a := 1, d := 0o177777, x := 2, t := 0o177777, l := 1 } [(0o377777, 0o33)])
      (fun t => (t.mem.wordAt 0o577777, t.cur.a, t.cur.d, t.cur.x, t.cur.t, t.cur.l, t.cur.p))
      = some (0o33, 2, 0, 3, 0, 0, 0o101) := by decide

/-- `WGLOB` -/
theorem test_wglob :
    out 0o140500 (at100 { z with t := 1, a := 0o4000, d := 3 } []) (fun t => (t.stbnk, t.stsrt, t.cmbnk))
      = some (1, 0o4000, 3) := by decide

/-- `RGLOB` -/
theorem test_rglob :
    out 0o140501 { at100 z [] with stbnk := 1, stsrt := 0o4000, cmbnk := 3 } (fun t => (t.cur.t, t.cur.a, t.cur.d))
      = some (1, 0o4000, 3) := by decide

/-- `SETPT`, one record -/
theorem test_setpt :
    out 0o140300 (at100 { z with x := 0o5000 } [(0o5001, 0o12), (0o5002, 0o164003), (0o5003, 0o456)])
      (fun t => (t.cur.a, t.cur.d, t.cur.b, t.pt.wordAt 0o24, t.pt.wordAt 0o25, t.cur.x, t.cur.p))
      = some (0o160003, 0o456, 0o177024, 0o160003, 0o456, 0, 0o100) := by decide

/-- `CLEPT`, one record, entry in use -/
theorem test_clept :
    out 0o140301 { at100 { z with x := 0o5000 } [(0o5001, 0o12)] with
        pt := (Memory.writeWord [] 0o24 0o164003).writeWord 0o25 0o456 }
      (fun t => (t.cur.b, t.cur.a, t.mem.wordAt 0o5002, t.pt.wordAt 0o24, t.pt.wordAt 0o25, t.cur.x))
      = some (0o177024, 0o164003, 0o164003, 0, 0o456, 0) := by decide

/-- `CLEPU`, entry in use -/
theorem test_clepu :
    out 0o140304 { at100 { z with x := 0o5000, l := 0o6000 } [(0o5001, 0o12)] with pt := Memory.writeWord [] 0o24 0o164003 }
      (fun t => (t.mem.wordAt 0o6000, t.mem.wordAt 0o5002, t.pt.wordAt 0o24)) = some (0o2000, 0o164003, 0) := by decide


/-! ## For every obligation with hypotheses: a state and operands that meet them -/

def user (r : RegSet) (ws : List (Nat × Word)) : State := mapped 0 [] (at100 r ws)

def fp32State (r : RegSet) (ws : List (Nat × Word)) : State :=
  { at100 r ws with params := { Params.default with fpFormat := .fp32 } }

theorem flat_at100 (r : RegSet) (ws : List (Nat × Word)) : (at100 r ws).Flat :=
  ⟨rfl, (by decide : 65536 ≤ 16777216)⟩

/-! ### Encoding and the step -/

theorem witness_DecodeOfEncode :
    (Instr.lda ⟨true, true, true, 0o377⟩).wf = true ∧ (Instr.radd true true true true .x .x).wf = true ∧
    (Instr.copy .d .zero).wf = true ∧ (Instr.irr 15 .x).wf = true := by decide

theorem witness_EncodeOfDecode :
    decodeWord 0 = some (.stz ⟨false, false, false, 0⟩) ∧ decodeWord 0o177777 = some (.bora 15 .x) := by decide

theorem witness_StepRunsDecoded :
    let s := at100 z [(0o100, 0o170407)]
    s.run = .running ∧ locate .fetch .untagged s.front.cur.p s.front = .ok (.phys 0o100) s.front ∧
    decode ((cellsOf (.phys 0o100)).map s.front.byteOf) = .ok (.saa 7, []) := ⟨by decide, by decide, rfl⟩

/-- At the top of the address space, after a level change. -/
theorem witness_StepRunsDecoded_top :
    let s := { (at100 z []).setLevel 10 { z with p := 0o177777 } with
      ioni := true, pie := 0o2000, pid := 0o2000, pt := Memory.writeWord [] 511 0o170407 }
    s.run = .running ∧ locate .fetch .untagged s.front.cur.p s.front = .ok (.table 511) s.front ∧
    decode ((cellsOf (.table 511)).map s.front.byteOf) = .ok (.saa 7, []) := ⟨by decide, by decide, rfl⟩

theorem witness_StepWithoutInstruction_fault :
    let s := { at100 z [] with params := { Params.default with physWords := 64 } }
    s.run = .running ∧ locate .fetch .untagged s.front.cur.p s.front = .trap .memoryOutOfRange s.front := by decide

theorem witness_StepWithoutInstruction_unassigned :
    let s := at100 z [(0o100, 0o150403)]
    s.run = .running ∧ locate .fetch .untagged s.front.cur.p s.front = .ok (.phys 0o100) s.front ∧
    decode ((cellsOf (.phys 0o100)).map s.front.byteOf) = .error (.unassigned 0o150403) := ⟨by decide, by decide, rfl⟩

theorem witness_StepWithoutInstruction_stopped :
    let s := { at100 z [] with run := .stopped }
    s.run = .stopped ∧ s.inbox.headD [] = [] := by decide

theorem witness_StepWithoutInstruction_start :
    let s := { at100 z [] with run := .stopped, inbox := [[.operatorStart]] }
    s.run = .stopped ∧ s.inbox.headD [] = [.operatorStart] := by decide

/-! ### The interrupt system -/

theorem witness_LevelSelection :
    State.reset.ioni = false ∧
    let s := { State.reset with ioni := true, pid := 0o100001, pie := 0o100001 }
    s.ioni = true ∧ (s.pid.getLsbD 15 = true ∧ s.pie.getLsbD 15 = true) ∧ s.select.pil = 15 := by decide

/-- Nothing requests, and level 1 alone requests. -/
theorem witness_LevelSelection_low :
    let s := { State.reset with ioni := true }
    let t := { State.reset with ioni := true, pid := 2, pie := 2 }
    s.ioni = true ∧ s.select.pil = 0 ∧ t.ioni = true ∧ t.select.pil = 1 := by decide

theorem witness_HostEventsFrame : ({ State.reset with pid := 1 } : State).pid.getLsbD 0 = true := by decide

theorem witness_TrapTaken :
    let s := trapping (at100 z []) 0o10
    (s.ioni = true ∧ s.pie.getLsbD 14 = true ∧ s.iie.getLsbD (s.intCode .pageFault).toNat = true ∧
      s.pil.toNat < 14) ∧
    ¬(State.reset.ioni = true ∧ State.reset.pie.getLsbD 14 = true ∧
      State.reset.iie.getLsbD (State.reset.intCode .pageFault).toNat = true ∧ State.reset.pil.toNat < 14) := by decide

/-- The highest level that can be left, and the lowest that cannot. -/
theorem witness_TrapTaken_levels :
    let s := { trapping (onLevel 13 z []) 0o10 with pid := 0o20000, pie := 0o60000 }
    let t := { trapping (onLevel 14 z []) 0o10 with pid := 0o40000 }
    (s.ioni = true ∧ s.pie.getLsbD 14 = true ∧ s.iie.getLsbD (s.intCode .pageFault).toNat = true ∧
      s.pil.toNat < 14) ∧
    ¬(t.ioni = true ∧ t.pie.getLsbD 14 = true ∧ t.iie.getLsbD (t.intCode .pageFault).toNat = true ∧
      t.pil.toNat < 14) := by decide

/-- Another code table: the cause's IIE bit is its code there. -/
theorem witness_TrapTaken_codes :
    let s := { trapping (at100 z []) 0o10000 with
      params := { Params.default with iicCodes := { IicCodes.default with pageFault := 12 } } }
    s.ioni = true ∧ s.pie.getLsbD 14 = true ∧ s.iie.getLsbD (s.intCode .pageFault).toNat = true ∧ s.pil.toNat < 14 ∧
    (s.request .pageFault).iic = 12 ∧ State.reset.params.iicCodes = .default := by decide

theorem witness_TrapTaken_next :
    let s := trapping (at100 z []) 0o10
    takeTrap .pageFault s = .next (s.request .pageFault) ∧ s.inbox.headD [] = [] ∧ ¬s.Requesting 15 :=
  ⟨rfl, by decide, by unfold State.Requesting; decide⟩

theorem witness_ErrorFlagRequest :
    let s := { at100 z [] with iie := 0o40 }
    let t := { at100 { z with sts := 0o10 } [] with iie := 0o40 }
    (s.cur.z = false ∧ t.cur.z = true ∧ t.iie.getLsbD (t.intCode .errorFlag).toNat = true) ∧
    ¬(s.cur.z = false ∧ s.cur.z = true ∧ s.iie.getLsbD (s.intCode .errorFlag).toNat = true) := by decide

theorem witness_WaitAndReturn :
    let s := { onLevel 10 z [] with ioni := true, pie := 0o2001, pid := 0o2001 }
    State.reset.entitled = true ∧ State.reset.ioni = false ∧
    s.entitled = true ∧ s.ioni = true ∧ s.pil ≠ 0 ∧ s.inbox.headD [] = [] ∧ s.Requesting 0 ∧ (0 : Level) ≠ s.pil ∧
    ∀ k : Level, k ≠ s.pil → s.Requesting k → k.toNat ≤ (0 : Level).toNat := by
  refine ⟨by decide, by decide, by decide, by decide, by decide, by decide, ?_, by decide, ?_⟩ <;>
    unfold State.Requesting <;> decide

/-- A level above the one that gives itself up requests; and level 0 with the interrupt system on. -/
theorem witness_WaitAndReturn_high :
    let s := { onLevel 1 z [] with ioni := true, pie := 0o100002, pid := 0o100002 }
    let t := { at100 z [] with ioni := true }
    s.entitled = true ∧ s.ioni = true ∧ s.pil ≠ 0 ∧ s.inbox.headD [] = [] ∧ s.Requesting 15 ∧ (15 : Level) ≠ s.pil ∧
    (∀ k : Level, k ≠ s.pil → s.Requesting k → k.toNat ≤ (15 : Level).toNat) ∧
    t.entitled = true ∧ t.ioni = true ∧ t.pil = 0 := by
  refine ⟨by decide, by decide, by decide, by decide, ?_, by decide, ?_, by decide, by decide, by decide⟩ <;>
    unfold State.Requesting <;> decide

theorem witness_MonitorCall :
    let s := at100 z []
    let t := { onLevel 14 z [] with iie := 2 }
    s.pil ≠ 14 ∧ s.iie.getLsbD (s.intCode .monitorCall).toNat = false ∧ t.pil = 14 ∧
    t.iie.getLsbD (t.intCode .monitorCall).toNat = true := by decide

/-! ### The whole machine -/

theorem wf_at100 : (at100 z [(0o100, 0o004010), (0o177, 0o400)]).Wf :=
  ⟨by decide, by decide, by decide, by decide, by decide, by decide⟩

theorem witness_StepKeepsWf :
    ∃ s t : State, s.Wf ∧ step s = .next t ∧ s.mem ≠ [] := ⟨_, _, wf_at100, rfl, by decide⟩

theorem witness_UnentitledIsolation :
    let s := user z []
    s.entitled = false ∧ (∃ t, exec (.saa 7) s = .next t) ∧ (∃ t, exec (.mon 7) s = .next t) ∧ (14 : Level) ≠ s.pil :=
  ⟨by decide, ⟨_, rfl⟩, ⟨_, rfl⟩, by decide⟩

/-- A user program on level 14 itself. -/
theorem witness_UnentitledIsolation_14 :
    let s := mapped 1 [] (onLevel 14 z [])
    s.entitled = false ∧ (∃ t, exec (.mon 7) s = .next t) ∧ (13 : Level) ≠ s.pil := ⟨by decide, ⟨_, rfl⟩, by decide⟩

theorem witness_PrivilegedTraps :
    isPrivileged .iof = true ∧ isPrivileged .movew10 = true ∧ (user z []).entitled = false ∧
    (mapped 1 [] (at100 z [])).entitled = false ∧ (mapped 2 [] (at100 z [])).entitled = true := by decide

theorem witness_OnlyStoresWriteMemory :
    mayStore (.saa 7) = false ∧ ∃ t, exec (.saa 7) (at100 z []) = .next t := ⟨by decide, _, rfl⟩

theorem witness_OnlySystemWrites :
    writesOtherLevel (.sta ⟨false, false, false, 8⟩) = false ∧ writesControl (.sta ⟨false, false, false, 8⟩) = false ∧
    ∃ t, exec (.sta ⟨false, false, false, 8⟩) (at100 z []) = .next t := ⟨by decide, by decide, _, rfl⟩

/-! ### Memory -/

theorem witness_FlatMemory :
    State.reset.Flat ∧ (65023 : Word).toNat < 65024 ∧ 65024 ≤ (65024 : Word).toNat ∧ (0o177777 : Word) ≠ 0 :=
  ⟨⟨by decide, by decide⟩, by decide, by decide, by decide⟩

theorem witness_AccessPlaces :
    let s := { State.reset with params := { Params.default with physWords := 32768 } }
    (s.poni = false ∧ (0o100000 : Word).toNat < 65024 ∧ s.params.physWords ≤ (0o100000 : Word).toNat) ∧
    (s.physPlace 0 0o100000 = .phys 0o100000 ∧ s.params.physWords ≤ (0o100000 : BitVec 24).toNat) ∧
    s.entitled = true ∧ 65024 ≤ (0o177000 : Word).toNat ∧
    (mapped 2 [] (at100 z [])).entitled = true ∧ (mapped 2 [] (at100 z [])).poni = true := by decide

theorem witness_AccessPlaces_write :
    memWriteVia .viaApt 0o177777 7 State.reset = .ok () (State.reset.writePlace 7 (.table 511)) := by decide

theorem witness_TranslatedAccess :
    let s := mapped 0 [(.write, 0o110, .ok (.phys 0o5000) (some 2) (some 3))] (at100 z [])
    s.poni = true ∧ (0o110 : Word).toNat < 65024 ∧
    s.params.translate ⟨s.transView, .write, s.tableTag .untagged, 0o110⟩ = .ok (.phys 0o5000) (some 2) (some 3) ∧
    s.installed (s.physWidth (.phys 0o5000)) = true := by decide

/-- The highest address outside the page-table range. -/
theorem witness_TranslatedAccess_top :
    let s := mapped 0 [(.read, 0o176777, .ok (.phys 0o77777777) (some 511) none)] { at100 z [] with sexi := true }
    s.poni = true ∧ (0o176777 : Word).toNat < 65024 ∧
    s.params.translate ⟨s.transView, .read, s.tableTag .untagged, 0o176777⟩ = .ok (.phys 0o77777777) (some 511) none ∧
    s.installed (s.physWidth (.phys 0o77777777)) = true := by decide

theorem witness_TranslatedAccess_faults :
    let s := mapped 0 [(.read, 0o110, .pageFault), (.write, 0o110, .protectViolation)] (at100 z [])
    s.poni = true ∧ s.params.translate ⟨s.transView, .read, s.tableTag .untagged, 0o110⟩ = .pageFault ∧
    s.params.translate ⟨s.transView, .write, s.tableTag .untagged, 0o110⟩ = .protectViolation := by decide

/-- A place beyond installed memory; and the top of the address space in a program without entitlement. -/
theorem witness_TranslatedAccess_out :
    let p := { Params.default with physWords := 0o4000 }
    let s := mapped 0 [(.read, 0o110, .ok (.phys 0o4000) none none)] { at100 z [] with params := p }
    let t := mapped 1 [(.write, 0o177777, .ok (.phys 0o5000) (some 2) (some 2))] (at100 z [])
    s.params.translate ⟨s.transView, .read, s.tableTag .untagged, 0o110⟩ = .ok (.phys 0o4000) none none ∧
    s.installed (s.physWidth (.phys 0o4000)) = false ∧ t.poni = true ∧ t.entitled = false ∧
    ¬(0o177777 : Word).toNat < 65024 ∧ t.installed (t.physWidth (.phys 0o5000)) = true ∧
    t.params.translate ⟨t.transView, .write, t.tableTag .untagged, 0o177777⟩ =
      .ok (.phys 0o5000) (some 2) (some 2) := by decide

theorem witness_PhysicalAddress :
    let s := State.reset
    let x := { State.reset with sexi := true }
    (7#16).toNat % (if s.sexi = true then 256 else 8) ≠ 0 ∧ (8#16).toNat % (if s.sexi = true then 256 else 8) = 0 ∧
    (8#16).toNat % (if x.sexi = true then 256 else 8) ≠ 0 ∧ (0o176777 : Word).toNat < 65024 ∧
    65024 ≤ (0o177000 : Word).toNat ∧ s.installed (s.physPlace 7 0o177777) = true ∧
    s.installed (s.physPlace 0 0o177777) = true := by decide

/-! ### Memory reference -/

theorem witness_EffectiveAddress :
    let s := at100 { z with b := 0o200 } [(0o110, 0o300), (0o210, 0o400)]
    let e := (8 : BitVec 8).signExtend 16
    memRead (s.cur.p + e) s = .ok 0o300 s ∧ memRead (s.cur.b + e) s = .ok 0o400 s := by decide

theorem witness_EffectiveAddress_fault :
    let s := { at100 z [] with params := { Params.default with physWords := 0o105 } }
    let e := (8 : BitVec 8).signExtend 16
    let t := { at100 { z with b := 0o105 } [] with params := { Params.default with physWords := 0o105 } }
    memRead (s.cur.p + e) s = .trap .memoryOutOfRange s ∧ memRead (t.cur.b + e) t = .trap .memoryOutOfRange t := by decide

/-- The operands of the witnesses for memory reference: word 0o110 by *10. -/
def m10 : AddrMode := ⟨false, false, false, 8⟩

theorem witness_SingleWordStores :
    let s := at100 z [(0o110, 5)]
    effAddr m10 s = .ok 0o110 s ∧ locate .write .untagged 0o110 s = .ok (.phys 0o110) s ∧ memRead 0o110 s = .ok 5 s := by
  decide

theorem witness_MemoryFaults :
    let s := { at100 z [] with params := { Params.default with physWords := 0o105 } }
    effAddr { m10 with i := true } s = .trap .memoryOutOfRange s ∧ effAddr m10 s = .ok 0o110 s ∧
    locate .write .untagged 0o110 s = .trap .memoryOutOfRange s ∧
    locate .read .untagged 0o110 s = .trap .memoryOutOfRange s := by decide

/-- Later words beyond installed memory: the second, and the third. -/
theorem witness_MemoryFaults_later :
    let p (n : Nat) : Params := { Params.default with physWords := n }
    let s := { at100 { z with a := 1, d := 2, t := 7 } [(0o110, 5)] with params := p 0o111 }
    let t := { at100 { z with a := 1, d := 2, t := 7 } [(0o110, 5), (0o111, 6)] with params := p 0o112 }
    let w (s : State) (n : Nat) (v : Word) := s.setMem (s.mem.writeWord n v)
    (effAddr m10 s = .ok 0o110 s ∧ memRead 0o110 s = .ok 5 s ∧ memRead (0o110 + 1) s = .trap .memoryOutOfRange s ∧
      memWrite 0o110 s.cur.a s = .ok () (w s 0o110 1) ∧ memWrite 0o110 s.cur.t s = .ok () (w s 0o110 7) ∧
      memWrite (0o110 + 1) s.cur.d (w s 0o110 1) = .trap .memoryOutOfRange (w s 0o110 1) ∧
      memWrite (0o110 + 1) s.cur.a (w s 0o110 7) = .trap .memoryOutOfRange (w s 0o110 7)) ∧
    (t.params.fpFormat = .fp48 ∧ effAddr m10 t = .ok 0o110 t ∧ memRead 0o110 t = .ok 5 t ∧
      memRead (0o110 + 1) t = .ok 6 t ∧ memRead (0o110 + 2) t = .trap .memoryOutOfRange t ∧
      memWrite 0o110 t.cur.t t = .ok () (w t 0o110 7) ∧
      memWrite (0o110 + 1) t.cur.a (w t 0o110 7) = .ok () (w (w t 0o110 7) 0o111 1) ∧
      memWrite (0o110 + 2) t.cur.d (w (w t 0o110 7) 0o111 1) =
        .trap .memoryOutOfRange (w (w t 0o110 7) 0o111 1)) := by decide

/-- A word that may be read and not written. -/
theorem witness_MemoryFaults_min :
    let s := mapped 0 [(.read, 0o110, .ok (.phys 0o5000) none none), (.write, 0o110, .protectViolation)]
      (at100 z [(0o5000, 5)])
    effAddr m10 s = .ok 0o110 s ∧ memRead 0o110 s = .ok 5 s ∧
    memWrite 0o110 (5 + 1) s = .trap .memoryProtectViolation s := by decide

theorem witness_MultiWordTransfers :
    let s := at100 { z with t := 7, a := 1, d := 2 } []
    let f := fp32State { z with a := 1, d := 2 } []
    let w (s : State) (n : Nat) (v : Word) := s.setMem (s.mem.writeWord n v)
    effAddr m10 s = .ok 0o110 s ∧ memWrite 0o110 s.cur.a s = .ok () (w s 0o110 1) ∧
    memWrite (0o110 + 1) s.cur.d (w s 0o110 1) = .ok () (w (w s 0o110 1) 0o111 2) ∧ s.params.fpFormat = .fp48 ∧
    memWrite 0o110 s.cur.t s = .ok () (w s 0o110 7) ∧
    memWrite (0o110 + 1) s.cur.a (w s 0o110 7) = .ok () (w (w s 0o110 7) 0o111 1) ∧
    memWrite (0o110 + 2) s.cur.d (w (w s 0o110 7) 0o111 1) = .ok () (w (w (w s 0o110 7) 0o111 1) 0o112 2) ∧
    f.params.fpFormat = .fp32 ∧ effAddr m10 f = .ok 0o110 f ∧ memWrite 0o110 f.cur.a f = .ok () (w f 0o110 1) ∧
    memWrite (0o110 + 1) f.cur.d (w f 0o110 1) = .ok () (w (w f 0o110 1) 0o111 2) := by decide

/-- A field across the top of the address space. -/
theorem witness_MultiWordTransfers_flat :
    let s := at100 { z with b := 0o177600 } []
    s.Flat ∧ effAddr ⟨false, false, true, 0o177⟩ s = .ok 0o177777 s ∧ s.params.fpFormat = .fp48 :=
  ⟨flat_at100 _ _, by decide, by decide⟩

theorem witness_LoadsComplete :
    let s := at100 z [(0o110, 5), (0o111, 6), (0o112, 7)]
    let f := fp32State z [(0o110, 5), (0o111, 6)]
    operandWord m10 s = .ok 5 s ∧ effAddr m10 s = .ok 0o110 s ∧ memRead 0o110 s = .ok 5 s ∧
    memRead (0o110 + 1) s = .ok 6 s ∧ memRead (0o110 + 2) s = .ok 7 s ∧ s.params.fpFormat = .fp48 ∧
    effAddr m10 f = .ok 0o110 f ∧ memRead 0o110 f = .ok 5 f ∧ memRead (0o110 + 1) f = .ok 6 f ∧
    f.params.fpFormat = .fp32 := by decide

/-- The first word of LDD beyond installed memory. -/
theorem witness_LoadsComplete_first :
    let s := { at100 z [] with params := { Params.default with physWords := 0o110 } }
    effAddr m10 s = .ok 0o110 s ∧ memRead 0o110 s = .trap .memoryOutOfRange s := by decide

/-- The second word of LDD beyond installed memory. -/
theorem witness_LoadsComplete_fault :
    let t := at100 z [(0o110, 5)]
    let s := { t with params := { t.params with physWords := 0o111 } }
    effAddr m10 s = .ok 0o110 s ∧ memRead 0o110 s = .ok 5 s ∧
    memRead (0o110 + 1) s = .trap .memoryOutOfRange s := by decide

theorem witness_AddSubMultiply :
    operandWord m10 (at100 { z with a := 0o77777 } [(0o110, 1)]) = .ok 1 (at100 { z with a := 0o77777 } [(0o110, 1)]) := by
  decide

/-! ### Sequencing and registers -/

theorem witness_JumpsComplete : effAddr { m10 with i := true } (at100 z [(0o110, 5)]) = .ok 5 (at100 z [(0o110, 5)]) := by
  decide

/-- Equal operands, and the pair whose difference overflows. -/
theorem witness_SkipsAndPositiveJumps :
    let s := at100 { z with a := 0o77777, x := 0o177777 } []
    s.cur.get .a ≠ s.cur.get .x ∧ s.cur.get .a = s.cur.get .a ∧ ¬0 ≤ (s.cur.get .a - s.cur.get .x).toInt ∧
    (s.cur.get .x).toInt ≤ (s.cur.get .a).toInt := by decide

theorem witness_ExecuteRegister :
    let s := at100 { z with a := 0o150403, b := 0o140650, t := 0o170407 } []
    RegCode.a ≠ .zero ∧ RegCode.a ≠ .p ∧ decodeWord (s.cur.get .a) = none ∧
    decodeWord (s.cur.get .b) = some (.exr .a 0) ∧ decodeWord (s.cur.get .t) = some (.saa 7) ∧
    s.cur.get .t = 0o361#8 ++ 7#8 ∧ ∀ r g, Instr.saa 7 ≠ .exr r g := by
  refine ⟨by decide, by decide, by decide, by decide, by decide, by decide, fun r g h => by cases h⟩

theorem witness_RegisterDivide :
    let s := at100 { z with d := 7, x := 2 } []
    let n : Int := (s.cur.a ++ s.cur.d).toInt
    let v : Int := (s.cur.get .x).toInt
    n = 3 * v + 1 ∧ |(1 : Int)| < |v| ∧ 0 ≤ 1 * n ∧ (-32768 : Int) ≤ 3 ∧ (3 : Int) ≤ 32767 ∧ (s.cur.get .b).toInt = 0 := by
  decide

/-- The least quotient that does not fit. -/
theorem witness_RegisterDivide_overflow :
    let s := at100 { z with d := 0o100000, x := 1 } []
    ∀ q r : Int, (s.cur.a ++ s.cur.d).toInt = q * (s.cur.get .x).toInt + r → |r| < |(s.cur.get .x).toInt| →
      0 ≤ r * (s.cur.a ++ s.cur.d).toInt → q < -32768 ∨ 32767 < q := by
  intro s q r h1 h2 _
  have e1 : (s.cur.a ++ s.cur.d).toInt = 32768 := by decide
  have e2 : (s.cur.get .x).toInt = 1 := by decide
  rw [e1, e2] at h1
  rw [e2, abs_one, Int.abs_lt_one_iff] at h2
  omega

theorem witness_BitInstructions :
    ¬(RegCode.zero = .zero ∧ 8 ≤ (7 : BitVec 4).toNat) ∧ ¬(RegCode.p = .zero ∧ 8 ≤ (15 : BitVec 4).toNat) := by decide

theorem witness_ShiftsComplete :
    (0 : Nat) < 1 ∧ (0 : BitVec 6).toNat = 0 ∧ 0 < (1 : BitVec 6).toNat ∧ (31 : BitVec 6).toNat < 32 ∧
    32 ≤ (32 : BitVec 6).toNat ∧ 32 ≤ (63 : BitVec 6).toNat := by decide

/-! ### Bytes, blocks, decimal -/

theorem witness_ByteLoadStore :
    let s := at100 { z with t := 0o1000, x := 0o177777 } []
    memRead (s.cur.t + s.cur.x >>> 1) s = .ok 0 s ∧
    locate .write .untagged (s.cur.t + s.cur.x >>> 1) s = .ok (.phys 0o100777) s ∧ s.Flat :=
  ⟨by decide, by decide, flat_at100 _ _⟩

theorem witness_ByteFill :
    (at100 { z with x := 0o2000, t := 0o100003 } []).Flat ∧ Params.default.blockLenBits ≤ 15 ∧
    ({ Params.default with blockLenBits := 15 } : Params).blockLenBits ≤ 15 := ⟨flat_at100 _ _, by decide, by decide⟩

theorem witness_ByteFill_first :
    let s := at100 { z with x := 0o2000, t := 0o100003, a := 0o40 } []
    let f := { s with params := { Params.default with physWords := 0o2000 } }
    s.params.blockLenBits ≤ 15 ∧ s.cur.t.toNat % 2 ^ s.params.blockLenBits ≠ 0 ∧
    writeByteAt (descrPos s.cur.x s.cur.t) (s.cur.a.extractLsb' 0 8) s = .ok () (s.writePlace 0o40 (.phys 0o2000)) ∧
    f.cur.t.toNat % 2 ^ f.params.blockLenBits ≠ 0 ∧
    writeByteAt (descrPos f.cur.x f.cur.t) (f.cur.a.extractLsb' 0 8) f = .trap .memoryOutOfRange f := by decide

/-- Overlapping fields. -/
theorem witness_ByteMove :
    let s := at100 { z with a := 0o2000, d := 4, x := 0o2001, t := 4 } [(0o2000, 0o40502)]
    s.Flat ∧ s.params.blockLenBits ≤ 15 ∧ (fieldCells 4 (descrPos s.cur.a s.cur.d))[2]? = some (.mem, 0o4002) ∧
    (fieldCells 4 (descrPos s.cur.x s.cur.t))[2]? = some (.mem, 0o4004) := ⟨flat_at100 _ _, by decide, by decide, by decide⟩

/-- MOVB and MOVBF of four bytes to the end of installed memory: two bytes are stored, the third faults. -/
theorem witness_ByteMove_write :
    let s := { at100 { z with a := 0o2000, d := 4, x := 0o3777, t := 4 } [(0o2000, 0o40502), (0o2001, 0o41504)] with
      params := { Params.default with physWords := 0o4000 } }
    let f (n : Nat) : State := match n with
      | 0 => s
      | 1 => s.setMem (s.mem.writeWord 0o3777 0o40400)
      | _ => s.setMem (s.mem.writeWord 0o3777 0o40502)
    let src := descrPos s.cur.a s.cur.d
    let dst := descrPos s.cur.x s.cur.t
    s.params.blockLenBits ≤ 15 ∧ 2 < min (s.cur.d.toNat % 2 ^ 12) (s.cur.t.toNat % 2 ^ 12) ∧
    readBytes 4 src s = .ok [0o101, 0o102, 0o103, 0o104] s ∧
    readByte src (f 0) = .ok 0o101 (f 0) ∧ writeByteAt dst 0o101 (f 0) = .ok () (f 1) ∧
    readByte (BytePos.advance 1 src) (f 1) = .ok 0o102 (f 1) ∧
    writeByteAt (BytePos.advance 1 dst) 0o102 (f 1) = .ok () (f 2) ∧
    readByte (BytePos.advance 2 src) (f 2) = .ok 0o103 (f 2) ∧
    writeByteAt (BytePos.advance 2 dst) 0o103 (f 2) = .trap .memoryOutOfRange (f 2) := by decide

/-- A source that runs past the end of installed memory, at its first byte and at its third. -/
theorem witness_ByteMove_read :
    let p := { Params.default with physWords := 0o4000 }
    let s := { at100 { z with a := 0o4000, d := 4, x := 0o3000, t := 4 } [] with params := p }
    let t := { at100 { z with a := 0o3777, d := 4, x := 0o3000, t := 4 } [] with params := p }
    readByte (descrPos s.cur.a s.cur.d) s = .trap .memoryOutOfRange s ∧
    readBytes 4 (descrPos s.cur.a s.cur.d) s = .trap .memoryOutOfRange s ∧
    readBytes 4 (descrPos t.cur.a t.cur.d) t = .trap .memoryOutOfRange t ∧
    writeByteAt (descrPos t.cur.x t.cur.t) 0 t = .ok () t ∧
    writeByteAt (BytePos.advance 1 (descrPos t.cur.x t.cur.t)) 0 t = .ok () t ∧
    readByte (BytePos.advance 2 (descrPos t.cur.a t.cur.d)) t = .trap .memoryOutOfRange t := by decide

theorem witness_WordMove :
    let s := at100 { z with a := 1, d := 0o1000, x := 2, t := 0o2000, l := 2048 } [(0o1000, 5), (0o201000, 6)]
    (s.cur.l ≠ 0 ∧ s.cur.l.toNat ≤ 2048) ∧ s.entitled = true ∧ s.poni = false ∧
    memReadVia .viaPt s.cur.d s = .ok 5 s ∧ memReadVia .viaApt s.cur.d s = .ok 5 s ∧ physRead s.cur.a s.cur.d s = .ok 6 s ∧
    memWriteVia .viaPt s.cur.t 5 s = .ok () (s.writePlace 5 (.phys 0o2000)) ∧
    memWriteVia .viaApt s.cur.t 5 s = .ok () (s.writePlace 5 (.phys 0o2000)) ∧
    memWriteVia .viaPt s.cur.t 6 s = .ok () (s.writePlace 6 (.phys 0o2000)) ∧
    memWriteVia .viaApt s.cur.t 6 s = .ok () (s.writePlace 6 (.phys 0o2000)) ∧
    physWrite s.cur.x s.cur.t 5 s = .ok () (s.writePlace 5 (.phys 0o402000)) ∧
    physWrite s.cur.x s.cur.t 6 s = .ok () (s.writePlace 6 (.phys 0o402000)) := by decide

theorem witness_WordMove_nothing :
    ¬((at100 z []).cur.l ≠ 0 ∧ (at100 z []).cur.l.toNat ≤ 2048) ∧
    ¬((at100 { z with l := 2049 } []).cur.l ≠ 0 ∧ (at100 { z with l := 2049 } []).cur.l.toNat ≤ 2048) ∧
    (at100 { z with l := 2049 } []).entitled = true := by decide

/-- +12 and -9, in op1's field of three digits and in one of two; and an empty op2. -/
theorem witness_DecimalSum :
    let s := at100 { z with a := 0o2000, d := 4, x := 0o2100, t := 4 } [(0o2000, 0o454), (0o2100, 0o235)]
    let e := at100 { z with a := 0o2000, d := 4, x := 0o2100, t := 0 } [(0o2000, 0o454)]
    let o := at100 { z with a := 0o2000, d := 2, x := 0o2100, t := 2 } [(0o2000, 0o116000), (0o2100, 0o16000)]
    s.Flat ∧ s.bcdAt s.cur.op1 = .ok ⟨false, [0, 1, 2]⟩ ∧ s.bcdAt s.cur.op2 = .ok ⟨true, [0, 0, 9]⟩ ∧
    (12 - 9 : Int).natAbs < 10 ^ (s.cur.op1.len - 1) ∧
    e.bcdAt e.cur.op1 = .ok ⟨false, [0, 1, 2]⟩ ∧ e.bcdAt e.cur.op2 = .ok ⟨false, []⟩ ∧
    o.Flat ∧ o.bcdAt o.cur.op1 = .ok ⟨false, [9]⟩ ∧ o.bcdAt o.cur.op2 = .ok ⟨false, [1]⟩ ∧
    10 ^ (o.cur.op1.len - 1) ≤ (9 + 1 : Int).natAbs :=
  ⟨flat_at100 _ _, rfl, rfl, by decide, rfl, rfl, flat_at100 _ _, rfl, rfl, by decide⟩

theorem witness_DecimalIllegalCode :
    let s := at100 { z with a := 0o2000, d := 4, x := 0o2100, t := 4 } [(0o2000, 0o5054), (0o2100, 0o235)]
    let u := at100 { z with a := 0o2000, d := 4, x := 0o2100, t := 4 } [(0o2000, 0o454)]
    s.Flat ∧ s.bcdAt s.cur.op1 = .error ⟨0o2000, false⟩ ∧ s.cur.op2.asciiCode.toNat ≤ 4 ∧
    u.Flat ∧ u.bcdAt u.cur.op1 = .ok ⟨false, [0, 1, 2]⟩ ∧ u.bcdAt u.cur.op2 = .error ⟨0o2100, true⟩ :=
  ⟨flat_at100 _ _, rfl, by decide, flat_at100 _ _, rfl, rfl⟩

/-- Right by one with rounding; and left by two, which does not fit. -/
theorem witness_DecimalShift :
    let s := at100 { z with a := 0o2000, d := 4, x := 0o2100, t := 0o2044 } [(0o2000, 0o534)]
    let u := at100 { z with a := 0o2000, d := 0o104, x := 0o2100, t := 4 } [(0o2000, 0o454)]
    s.Flat ∧ s.bcdAt s.cur.op1 = .ok ⟨false, [0, 1, 5]⟩ ∧ 15 / 10 + 1 < 10 ^ (s.cur.op2.len - 1) ∧
    u.Flat ∧ u.bcdAt u.cur.op1 = .ok ⟨false, [0, 1, 2]⟩ ∧ 10 ^ (u.cur.op2.len - 1) ≤ 12 * 10 ^ 2 :=
  ⟨flat_at100 _ _, rfl, by decide, flat_at100 _ _, rfl, by decide⟩

theorem witness_DecimalConvert :
    let s := at100 { z with a := 0o2000, d := 0o4003, x := 0o2100, t := 4 } [(0o2000, 0o30462), (0o2001, 0o26400)]
    let i := at100 { z with a := 0o2000, d := 0o4003, x := 0o2100, t := 4 } [(0o2000, 0o30472)]
    let u := at100 { z with a := 0o2000, d := 4, x := 0o2100, t := 0o4003 } [(0o2000, 0o454)]
    s.Flat ∧ asciiRoles s.cur.op1.asciiCode s.cur.op1.len = some [.digit, .digit, .sign] ∧
    parseAscii [.digit, .digit, .sign] (s.bytesAt s.cur.op1.len s.cur.op1.pos) = .ok ⟨true, [1, 2]⟩ ∧
    i.Flat ∧ parseAscii [.digit, .digit, .sign] (i.bytesAt i.cur.op1.len i.cur.op1.pos) = .error 1 ∧
    u.Flat ∧ u.bcdAt u.cur.op1 = .ok ⟨false, [0, 1, 2]⟩ ∧
    asciiRoles u.cur.op2.asciiCode u.cur.op2.len = some [.digit, .digit, .sign] :=
  ⟨flat_at100 _ _, rfl, rfl, flat_at100 _ _, rfl, flat_at100 _ _, rfl, rfl⟩

/-! ### Floating point -/

theorem witness_FloatArithmetic :
    let s := at100 z [(0o110, 5), (0o111, 6), (0o112, 7)]
    let f := fp32State z [(0o110, 5), (0o111, 6)]
    effAddr m10 s = .ok 0o110 s ∧ memRead 0o110 s = .ok 5 s ∧ memRead (0o110 + 1) s = .ok 6 s ∧
    memRead (0o110 + 2) s = .ok 7 s ∧ s.params.fpFormat = .fp48 ∧
    effAddr m10 f = .ok 0o110 f ∧ memRead 0o110 f = .ok 5 f ∧ memRead (0o110 + 1) f = .ok 6 f ∧
    f.params.fpFormat = .fp32 := by decide

/-- A divisor of zero in memory, in the 32-bit format. -/
theorem witness_FloatArithmetic_zero32 :
    let w := fp32.ops.nlz 0 16 false
    let s := { fp32State z [] with mem := (Memory.writeWord [] 0o110 (w.extractLsb' 16 16)).writeWord 0o111 (w.extractLsb' 0 16) }
    s.params.fpFormat = .fp32 ∧ effAddr m10 s = .ok 0o110 s ∧ memRead 0o110 s = .ok (w.extractLsb' 16 16) s ∧
    memRead (0o110 + 1) s = .ok (w.extractLsb' 0 16) s ∧ w.extractLsb' 16 16 ++ w.extractLsb' 0 16 = w := by
  intro w s
  have hs : s.Flat := ⟨rfl, by decide⟩
  refine ⟨rfl, rfl, ?_, ?_, by ext i hi; grind⟩
  · rw [memRead_flat hs]
    exact congrArg (Res.ok · s) (by
      show s.mem.wordAt 0o110 = _
      simp [s, Memory.wordAt_writeWord])
  · rw [memRead_flat hs]
    exact congrArg (Res.ok · s) (by
      show s.mem.wordAt 0o111 = _
      simp [s, Memory.wordAt_writeWord])

/-- A divisor of zero in memory, in the 48-bit format. -/
theorem witness_FloatArithmetic_zero48 :
    let w := fp48.ops.nlz 0 16 false
    let s := { at100 z [] with mem := ((Memory.writeWord [] 0o110 (w.extractLsb' 32 16)).writeWord 0o111
      (w.extractLsb' 16 16)).writeWord 0o112 (w.extractLsb' 0 16) }
    s.params.fpFormat = .fp48 ∧ effAddr m10 s = .ok 0o110 s ∧ memRead 0o110 s = .ok (w.extractLsb' 32 16) s ∧
    memRead (0o110 + 1) s = .ok (w.extractLsb' 16 16) s ∧ memRead (0o110 + 2) s = .ok (w.extractLsb' 0 16) s ∧
    w.extractLsb' 32 16 ++ w.extractLsb' 16 16 ++ w.extractLsb' 0 16 = w := by
  intro w s
  have hs : s.Flat := ⟨rfl, by decide⟩
  refine ⟨rfl, rfl, ?_, ?_, ?_, by ext i hi; grind⟩
  · rw [memRead_flat hs]
    exact congrArg (Res.ok · s) (by
      show s.mem.wordAt 0o110 = _
      simp [s, Memory.wordAt_writeWord])
  · rw [memRead_flat hs]
    exact congrArg (Res.ok · s) (by
      show s.mem.wordAt 0o111 = _
      simp [s, Memory.wordAt_writeWord])
  · rw [memRead_flat hs]
    exact congrArg (Res.ok · s) (by
      show s.mem.wordAt 0o112 = _
      simp [s, Memory.wordAt_writeWord])

theorem witness_FloatConversion :
    (fp32State z []).params.fpFormat = .fp32 ∧ (at100 z []).params.fpFormat = .fp48 ∧
    (at100 { z with a := 0o100001 } []).cur.a ≠ 0o100000 := by decide

/-! ### Stack -/

/-- INIT with room to the last word, and with one word too few. -/
theorem witness_StackEnter_init :
    let s := at100 z [(0o101, 0o100), (0o102, 0o40000), (0o103, 0o300)]
    let f := at100 z [(0o101, 0o100), (0o102, 0o40000), (0o103, 0o277)]
    s.Flat ∧ (s.flatWord (s.cur.p + 2) + 0o200).toNat + (s.flatWord (s.cur.p + 1)).toNat
      ≤ (s.flatWord (s.cur.p + 2)).toNat + (s.flatWord (s.cur.p + 3)).toNat ∧
    f.Flat ∧ (f.flatWord (f.cur.p + 2)).toNat + (f.flatWord (f.cur.p + 3)).toNat
      < (f.flatWord (f.cur.p + 2) + 0o200).toNat + (f.flatWord (f.cur.p + 1)).toNat :=
  ⟨flat_at100 _ _, by decide, flat_at100 _ _, by decide⟩

/-- ENTR with room to the last word, and with one word too few. -/
theorem witness_StackEnter_entr :
    let s := at100 { z with b := 0o10200 } [(0o101, 0o7300), (0o10002, 0o10300), (0o10003, 0o20000)]
    let f := at100 { z with b := 0o10200 } [(0o101, 0o7301), (0o10002, 0o10300), (0o10003, 0o20000)]
    s.Flat ∧ (s.flatWord (s.cur.b - 0o176) + 0o200).toNat + (s.flatWord (s.cur.p + 1)).toNat
      ≤ (s.flatWord (s.cur.b - 0o175)).toNat ∧
    f.Flat ∧ (f.flatWord (f.cur.b - 0o175)).toNat
      < (f.flatWord (f.cur.b - 0o176) + 0o200).toNat + (f.flatWord (f.cur.p + 1)).toNat :=
  ⟨flat_at100 _ _, by decide, flat_at100 _ _, by decide⟩

theorem witness_StackLeave :
    let s := at100 { z with b := 0o10500, a := 7 } [(0o10300, 0o1236), (0o10301, 0o10200)]
    let w (s : State) (n : Nat) (v : Word) := s.setMem (s.mem.writeWord n v)
    memRead (s.cur.b - 0o200) s = .ok 0o1236 s ∧ memRead (s.cur.b - 0o177) s = .ok 0o10200 s ∧
    memWrite (0o10200 - 0o173) s.cur.a s = .ok () (w s 0o10005 7) ∧
    memWrite (s.cur.b - 0o200) (0o1236 - 1) (w s 0o10005 7) = .ok () (w (w s 0o10005 7) 0o10300 0o1235) := by decide

theorem witness_StackLeave_entered :
    let s := at100 { z with b := 0o10200 } [(0o101, 0o7300), (0o10002, 0o10300), (0o10003, 0o20000)]
    s.Flat ∧ ∃ t, exec .entr s = .next t ∧ t.cur.p = s.cur.p + 3 := ⟨flat_at100 _ _, _, rfl, by decide⟩

/-! ### System control, input and output, physical memory -/

theorem witness_SystemSwitches :
    (at100 z []).entitled = true ∧ (mapped 2 [] (at100 z [])).entitled = true ∧
    (at100 z []).params.cpuModel = .nd110 ∧
    ({ at100 z [] with params := { Params.default with cpuModel := .nd100 } } : State).params.cpuModel = .nd100 := by decide

theorem witness_InputOutput :
    (at100 { z with t := 0o177777 } []).entitled = true ∧ ((0o306 : BitVec 11).setWidth 16 : Word).getLsbD 0 = false ∧
    ((0o3777 : BitVec 11).setWidth 16 : Word).getLsbD 0 = true ∧ (0o177777 : Word).getLsbD 0 = true := by decide

theorem witness_InternalRegisters :
    let s := at100 { z with a := 0o170 } []
    s.entitled = true ∧ s.params.regCodes = .default ∧ s.readReg 4 = some .pvl ∧ s.readReg 5 = some .iic ∧
    s.readReg 0o11 = some .actl ∧ s.writeReg 3 = some .pcr ∧ s.writeReg 5 = some .iie ∧
    s.writeReg 6 = some .pid ∧ s.writeReg 7 = some .pie := by decide

/-- A table that gives CS a number; number 1 stays STS. -/
theorem witness_InternalRegisters_cs :
    let c : RegCodes := ⟨RegCodes.default.read.set 14 (some .cs), RegCodes.default.write.set 1 (some .cs)⟩
    let s := { at100 z [] with params := { Params.default with regCodes := c } }
    s.entitled = true ∧ s.readReg 14 = some .cs ∧ s.readReg 15 = none ∧ s.writeReg 1 = some .sts := by decide

theorem witness_InterRegister :
    let s := onLevel 3 z []
    s.entitled = true ∧ (3 : Level) = s.pil ∧ (15 : Level) ≠ s.pil ∧ RegCode.zero = .zero ∧ RegCode.x ≠ .zero := by decide

theorem witness_RegisterBlocks :
    (onLevel 3 { z with x := 0o177774 } []).Flat ∧ (3 : Level) = (onLevel 3 z []).pil ∧ (0 : Level) ≠ (onLevel 3 z []).pil :=
  ⟨⟨rfl, by decide⟩, by decide, by decide⟩

/-- In bank 7 and in the page-table range of bank 0, with memory management off and on. -/
theorem witness_PhysicalLoads :
    let s := at100 { z with a := 7, t := 0, x := 0o177770, d := 7, b := 0o177770 } []
    let r := s.cur
    let there (b a : Word) : Prop := s.installed (s.physPlace b a) = true
    s.entitled = true ∧ (mapped 2 [] s).entitled = true ∧ there r.a r.d ∧ there r.t (r.x + 7) ∧ there r.t (r.x + 7 + 1) ∧
    there s.stbnk (r.b + 7) ∧ there s.cmbnk (r.b + 7) ∧ there r.t r.x ∧ there r.d (r.t + r.x >>> 1) ∧
    there r.t (r.x + r.a >>> 4) := by decide

theorem witness_PhysicalStores :
    let s := at100 { z with a := 7, t := 7, x := 0o177770, d := 7, b := 0o177770, sts := 4 } []
    let r := s.cur
    let there (b a : Word) : Prop := s.installed (s.physPlace b a) = true
    s.entitled = true ∧ there r.a r.d ∧ there r.t (r.x + 7) ∧ there r.t (r.x + 7 + 1) ∧ there s.stbnk (r.b + 7) ∧
    there s.cmbnk (r.b + 7) ∧ there r.d (r.t + r.x >>> 1) ∧ there r.t (r.x + r.a >>> 4) ∧ there r.t r.x := by decide

theorem witness_LogicalAccess :
    let s := at100 { z with t := 0o500, x := 0o2000, a := 0o37 } [(0o500, 3), (0o2001, 0o100000)]
    s.entitled = true ∧ memRead s.cur.t s = .ok 3 s ∧ memRead (s.cur.x + s.cur.a >>> 4) s = .ok 0o100000 s ∧
    locate .write .untagged (s.cur.x + s.cur.a >>> 4) s = .ok (.phys 0o2001) s ∧
    locate .write .untagged s.cur.t s = .ok (.phys 0o500) s := by decide

/-- A record in use, its map word elsewhere; the same with an unused entry; the end of the list. -/
theorem witness_PageTableLists :
    let s := { at100 { z with x := 0o5000, l := 0o6000 } [(0o5001, 0o12)] with pt := Memory.writeWord [] 0o24 0o164003 }
    let u := at100 { z with x := 0o5000 } [(0o5001, 0o12)]
    let there (n : Nat) : Prop := s.installed (s.physPlace 0 (BitVec.ofNat 16 n)) = true
    s.Flat ∧ s.cur.x ≠ 0 ∧ there 0o5000 ∧ there 0o5001 ∧ there 0o5002 ∧ there 0o5003 ∧
    s.flatWord 0o177024 ≠ 0 ∧ s.physPlace s.cur.t (s.cur.x + 2) ≠ flatPlace 0o177024 ∧
    flatPlace (s.cur.l + BitVec.ofNat 16 (0o12 / 16 % 8)) ≠ s.physPlace s.cur.t (s.cur.x + 2) ∧
    s.cur.l + BitVec.ofNat 16 (0o12 / 16 % 8) ≠ 0o177024 ∧ u.flatWord 0o177024 = 0 ∧ (at100 z []).cur.x = 0 :=
  ⟨⟨rfl, by decide⟩, by decide, by decide, by decide, by decide, by decide, by decide, by decide, by decide, by decide,
    by decide, by decide⟩

/-- Memory management on: the chains of accesses of the three instructions can be made, the map being translated. -/
theorem witness_PageTableLists_on :
    let m : List (AccessKind × Word × TransAnswer) :=
      [(.read, 0o6000, .ok (.phys 0o7000) none none), (.write, 0o6000, .ok (.phys 0o7000) none none)]
    let c := mapped 2 m { at100 { z with x := 0o5000, l := 0o6000 } [(0o5001, 0o12), (0o5002, 3), (0o5003, 4)] with
      pt := Memory.writeWord [] 0o24 0o164003 }
    let v := { c.transView with pageTable := Memory.writeWord [] 0o24 3 }
    let s := { c with params := { c.params with rings := (v, 2) :: c.params.rings } }
    let saved (u : State) : State := u.writePlace 0o164003 (.phys 0o5002)
    let e (v : Word) (u : State) : State := u.writePlace v (.table 0o24)
    (s.poni = true ∧ s.entitled = true ∧ s.flatWord 0o177024 = 0o164003 ∧ s.cur.x ≠ 0) ∧
    (memWrite 0o177024 3 s = .ok () (e 3 s) ∧
      memWrite (0o177024 + 1) 4 (e 3 s) = .ok () ((e 3 s).writePlace 4 (.table 0o25))) ∧
    memWrite 0o177024 0 (saved s) = .ok () (e 0 (saved s)) ∧
    (memRead 0o6000 s = .ok 0 s ∧ memWrite 0o6000 0o2000 s = .ok () (s.writePlace 0o2000 (.phys 0o7000)) ∧
      memWrite 0o177024 0 (saved (s.writePlace 0o2000 (.phys 0o7000))) =
        .ok () (e 0 (saved (s.writePlace 0o2000 (.phys 0o7000))))) := by decide

theorem witness_UndescribedStops :
    let s := { at100 { z with d := 0o24003, t := 0o24003 } [] with params := { Params.default with cpuModel := .nd100 } }
    s.entitled = true ∧ (user z []).entitled = false ∧ s.params.cpuModel = .nd100 ∧ s.readReg 14 = none ∧ s.writeReg 4 = none ∧
    8 ≤ (8 : BitVec 4).toNat ∧ 4 < s.cur.op1.asciiCode.toNat ∧ 4 < s.cur.op2.asciiCode.toNat ∧
    (∀ reg ∈ ([.sts, .pid, .pie] : List WriteReg), s.writeReg 2 ≠ some reg) := by decide

end Sys2Proof.Tests
end

namespace Sys2Proof.Machine

open Sys2Proof Sys2Proof.Config

/-! # What an instruction can do to the state

The obligations of this family, and others like them, say that a class of instructions leaves a part of the state as it
was. They all follow from one reading of the instructions: which named updates of the state each of them is made of.
`Kept Q` says that the updates open to every instruction keep `Q`; `KeptBy i Q` adds the updates that only some classes
of instructions make. `execPlain_keeps` and `exec_keeps` then say that the instruction keeps `Q`. -/

/-! ## Properties that updates keep -/

/-- The updates any instruction may make keep `Q`: the registers of the running level, a mark of translation (PGU is
bit 11, WIP bit 12), an open value drawn, an internal interrupt requested. -/
structure Kept (Q : State → Prop) : Prop where
  setCur : ∀ s r, Q s → Q (s.setCur r)
  mark : ∀ s n o, n = 11 ∨ n = 12 → Q s → Q (s.mark n o)
  drawn : ∀ s n, Q s → Q (s.drawn n)
  request : ∀ s c, Q s → Q (s.request c)

/-- Words written at installed places keep `Q` as well. -/
structure StoreKept (Q : State → Prop) : Prop extends Kept Q where
  writePlace : ∀ s v p, s.installed p = true → Q s → Q (s.writePlace v p)

/-- Writes of the control registers, of PID and of the run state keep `Q`. -/
structure ControlKept (Q : State → Prop) : Prop where
  setPcr : ∀ s lv v, Q s → Q (s.setPcr lv v)
  setIoni : ∀ s v, Q s → Q (s.setIoni v)
  setPoni : ∀ s v, Q s → Q (s.setPoni v)
  setSexi : ∀ s v, Q s → Q (s.setSexi v)
  setPid : ∀ s v, Q s → Q (s.setPid v)
  setPie : ∀ s v, Q s → Q (s.setPie v)
  setIie : ∀ s v, Q s → Q (s.setIie v)
  setGlobals : ∀ s a b c, Q s → Q (s.setGlobals a b c)
  setRun : ∀ s r, Q s → Q (s.setRun r)

/-- The updates instruction `i` may make keep `Q`: those of `Kept`, and those of each class of instructions it is in.
Only privileged instructions tell the host something or clear IIC. -/
structure KeptBy (i : Instr) (Q : State → Prop) : Prop extends Kept Q where
  store : mayStore i = true → StoreKept Q
  setLevel : writesOtherLevel i = true → ∀ s lv r, Q s → Q (s.setLevel lv r)
  control : writesControl i = true → ControlKept Q
  emit : isPrivileged i = true → ∀ s o, Q s → Q (s.emit o)
  setIic : isPrivileged i = true → ∀ s v, Q s → Q (s.setIic v)

/-! ## Reads and register updates -/

theorem Res.All.resultWrite {Q : State → Prop} {r : Res Unit} (hr : r.All Q) : (resultWrite r).All Q := by
  cases r with
  | ok u s => exact hr
  | trap c s => trivial
  | stop x => trivial

/-- A physical read changes nothing (R84). -/
theorem physRead_all {Q : State → Prop} {s : State} (hs : Q s) (b a : Word) : (physRead b a s).All Q := by
  rcases physRead_cases b a s with e | e <;> rw [e] <;> exact hs

section

variable {Q : State → Prop} {s : State} (h : Kept Q) (hs : Q s)
include h

/-- A part, and then the registers of the running level. -/
theorem Kept.thenSetCur {α : Type} {r : Res α} {f : α → State → RegSet} (hr : r.All Q) :
    (r.bind fun a u => .ok () (u.setCur (f a u))).All Q :=
  hr.bind fun _ _ _ k => h.setCur _ _ k

/-- The end of an instruction (R700). -/
theorem Kept.next {b t : State} {r : Res Unit} (hr : r.All Q) : finish b r = .next t → Q t :=
  fun e => finish_all e hr fun c u => h.request u c

/-- The end of an instruction whose parts answered. -/
theorem Kept.next_ok {b t u : State} (hu : Q u) : finish b (.ok () u) = .next t → Q t := h.next hu

include hs

theorem Kept.advance : Q s.advance := h.setCur _ _ hs

/-- The end of an instruction that writes registers of the running level alone. -/
theorem Kept.next_setCur {b t : State} {r : RegSet} : finish b (.ok () (s.setCur r)) = .next t → Q t :=
  h.next_ok (h.setCur _ _ hs)

/-- The end of a privileged instruction: the trap changes nothing (R731). -/
theorem Kept.next_privileged {b t : State} {body : Res Unit} (hb : body.All Q) :
    finish b (privileged s body) = .next t → Q t :=
  h.next (privileged_all hs fun _ => hb)

theorem Kept.locate_all (k : AccessKind) (t : TableTag) (a : Word) : (locate k t a s).All Q := by
  unfold locate translated
  split
  · exact hs
  · split
    · split
      · split
        · exact h.mark _ _ _ (.inr rfl) (h.mark _ _ _ (.inl rfl) hs)
        · exact hs
      · exact hs
      · exact hs
    · split <;> exact hs

theorem Kept.memReadVia_all (t : TableTag) (a : Word) : (memReadVia t a s).All Q :=
  (h.locate_all hs .read t a).bind fun _ _ _ k => k

theorem Kept.memRead_all (a : Word) : (memRead a s).All Q := h.memReadVia_all hs _ a

theorem Kept.memReadList_all (a : Word) (n : Nat) : (memReadList a n s).All Q := by
  induction n generalizing a s with
  | zero => exact hs
  | succ n ih => exact (h.memRead_all hs a).bind fun _ _ _ k => (ih k (a + 1)).bind fun _ _ _ k => k

theorem Kept.effAddr_all (m : AddrMode) : (effAddr m s).All Q := by
  unfold effAddr
  split
  · exact (h.memRead_all hs _).bind fun _ _ _ k => k
  · exact hs

theorem Kept.operandWord_all (m : AddrMode) : (operandWord m s).All Q :=
  (h.effAddr_all hs m).bind fun a _ _ k => h.memRead_all k a

theorem Kept.loadWith_all (m : AddrMode) (f : Word → RegSet → RegSet) : (loadWith m f s).All Q :=
  h.thenSetCur (h.operandWord_all hs m)

theorem Kept.read32_all (ea : Word) : (read32 ea s).All Q :=
  (h.memRead_all hs _).bind fun _ _ _ k => (h.memRead_all k _).bind fun _ _ _ k => k

theorem Kept.read48_all (ea : Word) : (read48 ea s).All Q :=
  (h.memRead_all hs _).bind fun _ _ _ k => (h.memRead_all k _).bind fun _ _ _ k =>
    (h.memRead_all k _).bind fun _ _ _ k => k

theorem Kept.floatWith_all (f : FloatOp) (m : AddrMode) : (floatWith f m s).All Q :=
  (h.effAddr_all hs m).bind fun ea u _ k => by
    cases u.params.fpFormat with
    | fp32 => exact h.thenSetCur (h.read32_all k ea)
    | fp48 => exact h.thenSetCur (h.read48_all k ea)

theorem Kept.readByte_all (p : BytePos) : (readByte p s).All Q := (h.memRead_all hs p.addr).bind fun _ _ _ k => k

theorem Kept.readBytes_all (n : Nat) (p : BytePos) : (readBytes n p s).All Q := by
  induction n generalizing p s with
  | zero => exact hs
  | succ n ih => exact (h.readByte_all hs p).bind fun _ _ _ k => (ih k p.next).bind fun _ _ _ k => k

theorem Kept.bitOp_all (f : Bool → Bool → Option Bool × Option Bool) (bn : BitVec 4) (dr : RegCode) :
    (bitOp f bn dr s).All Q := by
  unfold bitOp
  split
  · trivial
  · exact h.setCur _ _ hs

theorem Kept.bitSkip_all (f : Bool → Bool → Bool) (bn : BitVec 4) (dr : RegCode) : (bitSkip f bn dr s).All Q := by
  unfold bitSkip
  split
  · trivial
  · exact h.setCur _ _ hs

/-- Both decimal operands read and checked: an error return writes registers alone (R434). -/
theorem Kept.withOperands_all {f : Decimal → Decimal → State → Res Unit}
    (hf : ∀ v1 v2 u, Q u → (f v1 v2 u).All Q) : (withOperands s f).All Q :=
  (h.readBytes_all hs _ _).bind fun _ _ _ k => (h.readBytes_all k _ _).bind fun _ _ _ k => by
    split
    · exact h.setCur _ _ k
    · exact h.setCur _ _ k
    · exact hf _ _ _ k

theorem Kept.packEnd (n : Nat) (ds : List Nat) : Q (s.packEnd n ds) := by
  unfold State.packEnd
  split <;> exact h.setCur _ _ hs

theorem Kept.moveEnd_readWord_all (e : MoveEnd) : (e.readWord s).All Q := by
  cases e with
  | pt => exact h.memReadVia_all hs _ _
  | apt => exact h.memReadVia_all hs _ _
  | phys => exact physRead_all hs _ _

theorem Kept.requestIfEnabled (c : IntCode) : Q (s.requestIfEnabled c) := by
  unfold State.requestIfEnabled
  split
  · exact h.request _ _ hs
  · exact hs

theorem Kept.inputDone (answer : Option Word) : Q (s.inputDone answer) := by
  unfold State.inputDone
  split
  · exact h.setCur _ _ (h.drawn _ _ hs)
  · split
    · exact h.request _ _ (h.advance (h.drawn _ _ hs))
    · exact h.setCur _ _ (h.drawn _ _ hs)

theorem Kept.outputDone (answered : Bool) : Q (s.outputDone answered) := by
  unfold State.outputDone
  split
  · exact h.advance (h.drawn _ _ hs)
  · exact h.requestIfEnabled (h.advance (h.drawn _ _ hs)) _

theorem Kept.transfer_all (he : ∀ u o, Q u → Q (u.emit o)) (addr : Word) : (transfer addr s).All Q := by
  show Q (ite _ _ _)
  split
  · exact h.outputDone (he _ _ hs) _
  · exact h.inputDone (he _ _ hs) _

theorem Kept.identify_all (he : ∀ u o, Q u → Q (u.emit o)) (lv : Level) : (identify lv s).All Q :=
  h.inputDone (he _ _ hs) _

/-- Reading an internal register draws an open value, clears IIC, or changes nothing (R534). -/
theorem Kept.readInternal (hi : ∀ u v, Q u → Q (u.setIic v)) (r : ReadReg) : Q (s.readInternal r).2 := by
  cases r with
  | iic => exact hi _ _ hs
  | pid | pie | actl => exact hs
  | _ => exact h.drawn _ _ hs

/-- An internal register written: STS of the running level, a control register, or nothing of the state (R534). -/
theorem Kept.writeInternal (hc : ControlKept Q) (r : WriteReg) (v : Word) : Q (s.writeInternal r v) := by
  cases r with
  | sts => exact h.setCur _ _ hs
  | pid => exact hc.setPid _ _ hs
  | pie => exact hc.setPie _ _ hs
  | iie => exact hc.setIie _ _ hs
  | pcr => exact hc.setPcr _ _ _ hs
  | _ => exact hs

theorem Kept.maskedWrite_all (hc : ControlKept Q) (f : Word → Word → Word) (r : BitVec 4) :
    (maskedWrite f r s).All Q := by
  unfold maskedWrite
  split
  · trivial
  · exact h.advance (h.writeInternal hs hc _ _)

end

/-! ## Stores -/

section

variable {Q : State → Prop} {s : State} (h : StoreKept Q) (hs : Q s)
include h hs

theorem StoreKept.memWriteVia_all (t : TableTag) (a v : Word) : (memWriteVia t a v s).All Q :=
  (h.locate_all hs .write t a).bind fun _ _ e k => h.writePlace _ _ _ (installed_of_locate e) k

theorem StoreKept.memWrite_all (a v : Word) : (memWrite a v s).All Q := h.memWriteVia_all hs _ a v

theorem StoreKept.memWriteList_all (a : Word) (vs : List Word) : (memWriteList a vs s).All Q := by
  induction vs generalizing a s with
  | nil => exact hs
  | cons v vs ih => exact (h.memWrite_all hs a v).bind fun _ _ _ k => ih k (a + 1)

theorem StoreKept.memTestAndSet_all (a : Word) : (memTestAndSet a s).All Q :=
  (h.locate_all hs .write .untagged a).bind fun _ _ e k => h.writePlace _ _ _ (installed_of_locate e) k

theorem StoreKept.physWrite_all (b a v : Word) : (physWrite b a v s).All Q := by
  unfold physWrite
  split
  · exact h.writePlace _ _ _ ‹_› hs
  · exact hs

theorem StoreKept.storeAt_all (m : AddrMode) (v : Word) : (storeAt m v s).All Q :=
  (h.effAddr_all hs m).bind fun ea _ _ k => h.thenSetCur (h.memWrite_all k ea v)

theorem StoreKept.storeListAt_all (m : AddrMode) (vs : List Word) : (storeListAt m vs s).All Q :=
  (h.effAddr_all hs m).bind fun ea _ _ k => h.thenSetCur (h.memWriteList_all k ea vs)

/-- An error return, or a stack frame's words written and then the registers (R483, R484). -/
theorem StoreKept.newFrame_all {c : Prop} [Decidable c] {a : Word} {ws : List Word} {r : RegSet}
    {f : Unit → State → RegSet} :
    (if c then .ok () (s.setCur r) else (memWriteList a ws s).bind fun x u => .ok () (u.setCur (f x u))).All Q := by
  split
  · exact h.setCur _ _ hs
  · exact h.thenSetCur (h.memWriteList_all hs _ _)

/-! ### Bytes and blocks -/

theorem StoreKept.writeByteAt_all (p : BytePos) (v : Byte) : (writeByteAt p v s).All Q :=
  (h.memRead_all hs p.addr).bind fun _ _ _ k => h.memWrite_all k _ _

theorem StoreKept.writeBytes_all (p : BytePos) (bs : List Byte) : (writeBytes p bs s).All Q := by
  induction bs generalizing p s with
  | nil => exact hs
  | cons b bs ih => exact (h.writeByteAt_all hs p b).bind fun _ _ _ k => ih k p.next

theorem StoreKept.fillBytes_all (n : Nat) : (fillBytes n s).All Q := by
  induction n generalizing s with
  | zero => exact hs
  | succ n ih => exact (h.writeByteAt_all hs _ _).bind fun _ _ _ k => ih (h.setCur _ _ k)

theorem StoreKept.moveBuffered_all (bs : List Byte) : (moveBuffered bs s).All Q := by
  induction bs generalizing s with
  | nil => exact hs
  | cons b bs ih => exact (h.writeByteAt_all hs _ b).bind fun _ _ _ k => ih (h.setCur _ _ k)

theorem StoreKept.moveForward_all (n : Nat) : (moveForward n s).All Q := by
  induction n generalizing s with
  | zero => exact hs
  | succ n ih =>
    exact (h.readByte_all hs _).bind fun b _ _ k => (h.writeByteAt_all k _ b).bind fun _ _ _ k =>
      ih (h.setCur _ _ k)

theorem StoreKept.moveEnd_writeWord_all (e : MoveEnd) (v : Word) : (e.writeWord v s).All Q := by
  cases e with
  | pt => exact h.memWriteVia_all hs _ _ _
  | apt => exact h.memWriteVia_all hs _ _ _
  | phys => exact h.physWrite_all hs _ _ _

theorem StoreKept.moveStep_all (src dst : MoveEnd) : (moveStep src dst s).All Q := by
  unfold moveStep
  split
  · exact h.advance hs
  · exact (h.moveEnd_readWord_all hs src).bind fun v _ _ k => h.thenSetCur (h.moveEnd_writeWord_all k dst v)

/-! ### Decimal results -/

theorem StoreKept.writeNibbles_all (o : DecimalOp) (ns : List (BitVec 4)) : (writeNibbles o ns s).All Q := by
  have written : (if o.len % 2 = 1 then
      (readByte o.pos s).bind fun b u => writeBytes o.pos (nibbleBytes (b.extractLsb' 4 4 :: ns)) u
      else writeBytes o.pos (nibbleBytes ns) s).All Q := by
    split
    · exact (h.readByte_all hs o.pos).bind fun _ _ _ k => h.writeBytes_all k _ _
    · exact h.writeBytes_all hs _ _
  exact written.resultWrite

theorem StoreKept.writeBcd_all (o : DecimalOp) (m : Nat) (sg : BitVec 4) : (writeBcd o m sg s).All Q :=
  h.writeNibbles_all hs o _

theorem StoreKept.writeOpenField_all (o : DecimalOp) : (writeOpenField o s).All Q :=
  h.writeNibbles_all (h.drawn _ _ hs) o _


/-- A result written into its field, then the registers of the running level. -/
theorem StoreKept.storeSum_all (r : Int) : (storeSum r s).All Q := by
  unfold storeSum
  dsimp only
  split
  · split <;> exact h.setCur _ _ hs
  · split
    · exact h.thenSetCur (h.writeOpenField_all hs _)
    · exact h.thenSetCur (h.writeBcd_all (h.drawn _ _ hs) _ _ _)

theorem StoreKept.storeShifted_all (v : Decimal) : (storeShifted v s).All Q := by
  unfold storeShifted
  dsimp only
  split
  · split <;> exact h.setCur _ _ hs
  · split
    · exact h.thenSetCur (h.writeOpenField_all hs _)
    · exact h.thenSetCur (h.writeBcd_all hs _ _ _)

theorem StoreKept.storePacked_all (v : Decimal) : (storePacked v s).All Q := by
  unfold storePacked
  dsimp only
  split
  · exact h.packEnd hs _ _
  · exact (h.writeBcd_all hs _ _ _).bind fun _ _ _ k => h.packEnd k _ _

theorem StoreKept.storeUnpacked_all (roles : List AsciiRole) (v : Decimal) : (storeUnpacked roles v s).All Q :=
  (h.writeBytes_all hs _ _).resultWrite.bind fun _ _ _ k => h.packEnd k _ _

/-! ### Page-table lists -/

theorem StoreKept.setptRecord_all : (setptRecord s).All Q :=
  (physRead_all hs _ _).bind fun _ _ _ k => (physRead_all (h.setCur _ _ k) _ _).bind fun _ _ _ k =>
    (physRead_all (h.setCur _ _ k) _ _).bind fun _ _ _ k => (h.memWrite_all (h.setCur _ _ k) _ _).bind fun _ _ _ k =>
      (h.memWrite_all k _ _).bind fun _ _ _ k => h.thenSetCur (physRead_all k _ _)

theorem StoreKept.nextRecord_all : (nextRecord s).All Q := h.thenSetCur (physRead_all hs _ _)

theorem StoreKept.loadEntry_all : (loadEntry s).All Q :=
  (physRead_all hs _ _).bind fun _ _ _ k => (h.memRead_all (h.setCur _ _ k) _).bind fun _ _ _ k => h.setCur _ _ k

theorem StoreKept.saveAndClear_all : (saveAndClear s).All Q :=
  (h.physWrite_all hs _ _ _).bind fun _ _ _ k => h.memWrite_all k _ _

theorem StoreKept.collectPgu_all (n : Word) : (collectPgu n s).All Q :=
  (h.memRead_all hs _).bind fun _ _ _ k => h.memWrite_all k _ _

theorem StoreKept.cleptRecord_all : (cleptRecord s).All Q :=
  (h.loadEntry_all hs).bind fun _ u _ k => by
    refine Res.All.bind ?_ fun _ _ _ k => h.nextRecord_all k
    split
    · exact k
    · exact h.saveAndClear_all k

theorem StoreKept.clepuRecord_all : (clepuRecord s).All Q :=
  (h.loadEntry_all hs).bind fun n u _ k => by
    refine Res.All.bind ?_ fun _ _ _ k => h.nextRecord_all k
    split
    · exact k
    · exact (h.collectPgu_all k n).bind fun _ _ _ k => h.saveAndClear_all k

/-- A list instruction: P goes on at the end of the list, else one record (R611, R612, R613). -/
theorem StoreKept.next_list {b t : State} {c : Prop} [Decidable c] {record : Res Unit} (hr : record.All Q) :
    finish b (privileged s (if c then .ok () s.advance else record)) = .next t → Q t :=
  h.next_privileged hs (by
    split
    · exact h.advance hs
    · exact hr)

end

/-! ## Every instruction -/

/-- An instruction keeps what the updates it may make keep. -/
theorem execPlain_keeps {i : Instr} {Q : State → Prop} {s t : State} (h : KeptBy i Q) (hs : Q s) :
    execPlain i s = .next t → Q t := by
  cases i with
  -- Registers of the running level alone.
  | jap | jan | jaz | jaf | jpc | jnc | jxz | jxn | skp => exact h.next_setCur hs
  | sab | saa | sat | sax | aab | aaa | aat | aax | mix3 => exact h.next_setCur hs
  | swap | rand | rexo | rora | radd | copy | rclr | rinc | rdcr | rsub | exit => exact h.next_setCur hs
  | sht | shd | sha | sad | nlz => exact h.next_setCur hs
  | rmpy | rdiv => exact h.next_setCur (h.drawn _ _ hs)
  | exr => exact h.next_setCur hs
  | dnz =>
    refine h.next_ok ?_
    split
    · exact h.setCur _ _ hs
    · exact h.setCur _ _ (h.drawn _ _ hs)
  | bsetZro | bsetOne | bsetBcm | bsetBac | bstc | bsta | bldc | blda | banc | band | borc | bora =>
    exact h.next (h.bitOp_all hs _ _ _)
  | bskpZro | bskpOne | bskpBcm | bskpBac => exact h.next (h.bitSkip_all hs _ _ _)
  -- Operands read from memory.
  | jmp m | jpl m => exact h.next (h.thenSetCur (h.effAddr_all hs m))
  | lda m | ldt m | ldx m | add m | sub m | and m | ora m | mpy m => exact h.next (h.loadWith_all hs m _)
  | ldd m => exact h.next ((h.effAddr_all hs m).bind fun _ _ _ k => h.thenSetCur (h.read32_all k _))
  | ldf m =>
    refine h.next ((h.effAddr_all hs m).bind fun _ _ _ k => ?_)
    split
    · exact h.thenSetCur (h.read32_all k _)
    · exact h.thenSetCur (h.read48_all k _)
  | fad m | fsb m | fmu m | fdv m => exact h.next (h.floatWith_all hs _ m)
  | lbyt => exact h.next (h.thenSetCur (h.readByte_all hs _))
  | leave => exact h.next ((h.memRead_all hs _).bind fun _ _ _ k => h.thenSetCur (h.memRead_all k _))
  | comd => exact h.next (h.withOperands_all hs fun _ _ _ k => h.setCur _ _ k)
  | rdus | lbit => exact h.next_privileged hs (h.thenSetCur (h.memRead_all hs _))
  | ldatx | ldxtx | ldbtx | lasb | lacb | lxsb | lxcb | lbitp | lbytp | rdusp | exam =>
    exact h.next_privileged hs (h.thenSetCur (physRead_all hs _ _))
  | lddtx =>
    exact h.next_privileged hs ((physRead_all hs _ _).bind fun _ _ _ k => h.thenSetCur (physRead_all k _ _))
  -- Stores.
  | stz m | sta m | stt m | stx m => exact h.next ((h.store rfl).storeAt_all hs m _)
  | std m | stf m => exact h.next ((h.store rfl).storeListAt_all hs m _)
  | min m =>
    exact h.next ((h.effAddr_all hs m).bind fun _ _ _ k => (h.memRead_all k _).bind fun _ _ _ k =>
      h.thenSetCur ((h.store rfl).memWrite_all k _ _))
  | sbyt => exact h.next (h.thenSetCur ((h.store rfl).writeByteAt_all hs _ _))
  | bfill => exact h.next (h.thenSetCur ((h.store rfl).fillBytes_all hs _))
  | movb =>
    exact h.next ((h.readBytes_all hs _ _).bind fun bs _ _ k =>
      ((h.store rfl).moveBuffered_all k bs).bind fun _ _ _ k => h.setCur _ _ k)
  | movbf => exact h.next (((h.store rfl).moveForward_all hs _).bind fun _ _ _ k => h.setCur _ _ k)
  | movew0 | movew1 | movew3 | movew4 => exact h.next ((h.store rfl).moveStep_all hs _ _)
  | movew2 | movew5 | movew6 | movew7 | movew10 => exact h.next_privileged hs ((h.store rfl).moveStep_all hs _ _)
  | addd | subd => exact h.next (h.withOperands_all hs fun _ _ _ k => (h.store rfl).storeSum_all k _)
  | shde =>
    refine h.next ((h.readBytes_all hs _ _).bind fun _ _ _ k => ?_)
    split
    · exact h.setCur _ _ k
    · exact (h.store rfl).storeShifted_all k _
  | pack =>
    refine h.next ?_
    split
    · trivial
    · refine (h.readBytes_all hs _ _).bind fun _ _ _ k => ?_
      split
      · exact h.setCur _ _ k
      · exact (h.store rfl).storePacked_all k _
  | upack =>
    refine h.next ?_
    split
    · trivial
    · refine (h.readBytes_all hs _ _).bind fun _ _ _ k => ?_
      split
      · exact h.setCur _ _ k
      · exact (h.store rfl).storeUnpacked_all k _ _
  | init =>
    exact h.next ((h.memRead_all hs _).bind fun _ _ _ k => (h.memRead_all k _).bind fun _ _ _ k =>
      (h.memRead_all k _).bind fun _ _ _ k => (h.memRead_all k _).bind fun _ _ _ k => (h.store rfl).newFrame_all k)
  | entr =>
    exact h.next ((h.memRead_all hs _).bind fun _ _ _ k => (h.memRead_all k _).bind fun _ _ _ k =>
      (h.memRead_all k _).bind fun _ _ _ k => (h.store rfl).newFrame_all k)
  | eleav =>
    exact h.next ((h.memRead_all hs _).bind fun _ _ _ k => (h.memRead_all k _).bind fun _ _ _ k =>
      ((h.store rfl).memWrite_all k _ _).bind fun _ _ _ k => h.thenSetCur ((h.store rfl).memWrite_all k _ _))
  | srb => exact h.next_privileged hs (h.thenSetCur ((h.store rfl).memWriteList_all (h.drawn _ _ hs) _ _))
  | statx | stztx | sasb | sacb | szsb | szcb | depo =>
    exact h.next_privileged hs (h.thenSetCur ((h.store rfl).physWrite_all hs _ _ _))
  | stdtx =>
    exact h.next_privileged hs (((h.store rfl).physWrite_all hs _ _ _).bind fun _ _ _ k =>
      h.thenSetCur ((h.store rfl).physWrite_all k _ _ _))
  | sbit =>
    exact h.next_privileged hs ((h.memRead_all hs _).bind fun _ _ _ k =>
      h.thenSetCur ((h.store rfl).memWrite_all k _ _))
  | sbitp | sbytp | tsetp =>
    exact h.next_privileged hs ((physRead_all hs _ _).bind fun _ _ _ k =>
      h.thenSetCur ((h.store rfl).physWrite_all k _ _ _))
  | tset => exact h.next_privileged hs (h.thenSetCur ((h.store rfl).memTestAndSet_all hs _))
  | setpt => exact (h.store rfl).next_list hs ((h.store rfl).setptRecord_all hs)
  | clept => exact (h.store rfl).next_list hs ((h.store rfl).cleptRecord_all hs)
  | clepu => exact (h.store rfl).next_list hs ((h.store rfl).clepuRecord_all hs)
  -- Control registers and the run state.
  | iof | ion => exact h.next_privileged hs (h.advance ((h.control rfl).setIoni _ _ hs))
  | pof | pon => exact h.next_privileged hs (h.advance ((h.control rfl).setPoni _ _ hs))
  | piof | pion =>
    exact h.next_privileged hs (h.advance ((h.control rfl).setPoni _ _ ((h.control rfl).setIoni _ _ hs)))
  | sex | rex => exact h.next_privileged hs (h.advance ((h.control rfl).setSexi _ _ hs))
  | wglob => exact h.next_privileged hs (h.advance ((h.control rfl).setGlobals _ _ _ _ hs))
  | wait =>
    refine h.next_privileged hs ?_
    show Q (ite _ _ _)
    split
    · exact (h.control rfl).setRun _ _ (h.advance hs)
    · split
      · exact h.advance hs
      · exact (h.control rfl).setPid _ _ (h.advance hs)
  | trr r =>
    refine h.next_privileged hs ?_
    split
    · trivial
    · exact h.advance (h.writeInternal hs (h.control rfl) _ _)
  | mcl r | mst r => exact h.next_privileged hs (h.maskedWrite_all hs (h.control rfl) _ r)
  -- Registers of other levels.
  | mon => exact h.next_ok (h.requestIfEnabled (h.advance (h.setLevel rfl _ _ _ hs)) _)
  | irw =>
    refine h.next_privileged hs ?_
    show Q (ite _ _ _)
    split
    · exact h.setLevel rfl _ _ _ hs
    · exact h.advance (h.setLevel rfl _ _ _ hs)
  | lrb =>
    refine h.next_privileged hs ((h.memReadList_all hs _ _).bind fun _ _ _ k => ?_)
    show Q (ite _ _ _)
    split
    · exact h.advance (h.setCur _ _ k)
    · exact h.advance (h.setLevel rfl _ _ _ k)
  -- Reads of internal registers and of other levels, the host, identification.
  | tra r =>
    refine h.next_privileged hs ?_
    split
    · trivial
    · exact h.setCur _ _ (h.readInternal hs (h.setIic rfl) _)
  | irr lv reg =>
    refine h.next_privileged hs (h.setCur _ _ ?_)
    split
    · exact h.drawn _ _ hs
    · exact hs
  | rglob => exact h.next_privileged hs (h.setCur _ _ hs)
  | opcom => exact h.next_privileged hs (h.advance (h.emit rfl _ _ hs))
  | identPl10 | identPl11 | identPl12 | identPl13 =>
    exact h.next_privileged hs (h.identify_all hs (h.emit rfl) _)
  | iox | ioxt => exact h.next_privileged hs (h.transfer_all hs (h.emit rfl) _)
  | iot => exact h.next_privileged hs hs
  | lwcs =>
    refine h.next_privileged hs ?_
    split
    · exact h.advance hs
    · trivial
  | versn =>
    refine h.next ?_
    split
    · exact hs
    · exact h.setCur _ _ (h.drawn _ _ hs)
  -- No meaning is given: there is no next state.
  | geco => exact h.next (b := s) (r := .stop .gecoUndocumented) trivial
  | clnreent | chreentpages | clpt | cnrek | enpt | inspl | rempl | rept => exact h.next_privileged hs trivial

/-- `exec` and EXR's execution of a word agree on every instruction but EXR (R270). -/
theorem exec_eq_execPlain {i : Instr} (hi : ∀ sr ign, i ≠ .exr sr ign) (s : State) : exec i s = execPlain i s := by
  cases i with
  | exr sr ign => exact absurd rfl (hi sr ign)
  | _ => rfl

/-- An instruction other than EXR keeps what the updates it may make keep. -/
theorem exec_keeps {i : Instr} {Q : State → Prop} {s t : State} (hi : ∀ sr ign, i ≠ .exr sr ign) (h : KeptBy i Q)
    (hs : Q s) (he : exec i s = .next t) : Q t :=
  execPlain_keeps h hs (exec_eq_execPlain hi s ▸ he)

/-! ## Levels and control state -/

/-- PIL and the registers of every level but the running one are as in `s`. -/
structure SameElsewhere (s t : State) : Prop where
  pil : t.pil = s.pil
  others : SameOtherLevels s t

theorem SameElsewhere.refl (s : State) : SameElsewhere s s := ⟨rfl, fun _ _ => rfl⟩

/-- Updates that leave PIL and the registers of the other levels. -/
theorem SameElsewhere.congr {s t u : State} (h : SameElsewhere s t) (hp : u.pil = t.pil)
    (ho : ∀ lv, lv ≠ t.pil → u.level lv = t.level lv) : SameElsewhere s u where
  pil := hp.trans h.pil
  others lv hlv := (ho lv (h.pil ▸ hlv)).trans (h.others lv hlv)

theorem sameElsewhere_kept (s : State) : StoreKept (SameElsewhere s) where
  setCur _ _ h := h.congr rfl fun _ hlv => State.setCur_level_ne _ _ hlv
  mark _ _ o _ h := by cases o <;> exact h.congr rfl fun _ _ => rfl
  drawn _ _ h := h.congr rfl fun _ _ => rfl
  request _ _ h := h.congr rfl fun _ _ => rfl
  writePlace _ v p _ h := h.congr (State.writePlace_pil _ v p) fun lv _ => State.writePlace_level _ v p lv

theorem sameElsewhere_controlKept (s : State) : ControlKept (SameElsewhere s) where
  setPcr _ _ _ h := h.congr rfl fun _ _ => rfl
  setIoni _ _ h := h.congr rfl fun _ _ => rfl
  setPoni _ _ h := h.congr rfl fun _ _ => rfl
  setSexi _ _ h := h.congr rfl fun _ _ => rfl
  setPid _ _ h := h.congr rfl fun _ _ => rfl
  setPie _ _ h := h.congr rfl fun _ _ => rfl
  setIie _ _ h := h.congr rfl fun _ _ => rfl
  setGlobals _ _ _ _ h := h.congr rfl fun _ _ => rfl
  setRun _ _ h := h.congr rfl fun _ _ => rfl

/-- Only the instructions of `writesOtherLevel` can change the registers of another level. -/
theorem keptBy_sameElsewhere {i : Instr} (hi : writesOtherLevel i = false) (s : State) :
    KeptBy i (SameElsewhere s) where
  toKept := (sameElsewhere_kept s).toKept
  store _ := sameElsewhere_kept s
  setLevel hl := absurd hl (by simp [hi])
  control _ := sameElsewhere_controlKept s
  emit _ _ _ h := h.congr rfl fun _ _ => rfl
  setIic _ _ _ h := h.congr rfl fun _ _ => rfl

/-- `SameControl` but for what the CPU has told the host. -/
def SameControlState (s t : State) : Prop := SameControl s { t with outbox := s.outbox }

theorem SameControlState.refl (s : State) : SameControlState s s :=
  ⟨rfl, rfl, rfl, rfl, rfl, rfl, rfl, rfl, rfl, rfl, rfl, rfl, rfl⟩

/-- Updates of what is neither control state nor a parameter. -/
theorem SameControlState.update {s t : State} (h : SameControlState s t) (regs : Vector RegSet 16) (pid : Word)
    (iic : BitVec 4) (pvl : Level) (mem pt : Memory) (draws : Nat) (outbox : List HostOutput) :
    SameControlState s { t with regs, pid, iic, pvl, mem, pt, draws, outbox } :=
  { h with }

theorem sameControlState_kept (s : State) : StoreKept (SameControlState s) where
  setCur _ _ h := h.update ..
  mark _ _ o _ h := by cases o <;> exact h.update ..
  drawn _ _ h := h.update ..
  request _ _ h := h.update ..
  writePlace _ _ p _ h := by cases p <;> exact h.update ..

/-- Only the instructions of `writesControl` can change the control state. -/
theorem keptBy_sameControlState {i : Instr} (hi : writesControl i = false) (s : State) :
    KeptBy i (SameControlState s) where
  toKept := (sameControlState_kept s).toKept
  store _ := sameControlState_kept s
  setLevel _ _ _ _ h := h.update ..
  control hc := absurd hc (by simp [hi])
  emit _ _ _ h := h.update ..
  setIic _ _ _ h := h.update ..

theorem ne_exr_of_class {inClass : Instr → Bool} {i : Instr} (hexr : ∀ sr ign, inClass (.exr sr ign) = true)
    (hi : inClass i = false) (sr : RegCode) (ign : BitVec 3) : i ≠ .exr sr ign := by
  rintro rfl
  simp [hexr] at hi

/-! ## The obligations -/

/-- Settles O18: `exec_keeps` for the registers of the other levels, and for the control state. -/
theorem onlySystemWrites : Obligations.OnlySystemWrites := by
  unfold Obligations.OnlySystemWrites
  constructor
  · intro i s t hi he
    have same : SameElsewhere s t :=
      exec_keeps (ne_exr_of_class (fun _ _ => rfl) hi) (keptBy_sameElsewhere hi s) (SameElsewhere.refl s) he
    exact same.others
  · intro i s t hi he
    have same : SameControlState s t :=
      exec_keeps (ne_exr_of_class (fun _ _ => rfl) hi) (keptBy_sameControlState hi s) (SameControlState.refl s) he
    exact same

/-- Settles O12: the values `State.reset` gives (R750). -/
theorem powerUp : Obligations.PowerUp := ⟨rfl, rfl, rfl, rfl, rfl, rfl, rfl⟩

end Sys2Proof.Machine

namespace Sys2Proof.Machine

open Sys2Proof Sys2Proof.Config

/-! # Memory: where an access goes, what it changes, and that the stores stay well formed -/

/-! ## Every step keeps a state well formed -/

/-- What EXR does: an illegal instruction, or the word of the register by its own meaning (R270). -/
theorem exec_exr_next {sr : RegCode} {ign : BitVec 3} {s t : State} (h : exec (.exr sr ign) s = .next t) :
    finish s (.trap .illegalInstruction s) = .next t ∨
      ∃ i, decodeWord (s.cur.get sr) = some i ∧ execPlain i s = .next t := by
  change execExr sr ign s = .next t at h
  unfold execExr at h
  split at h
  · exact .inl h
  · split at h
    · exact .inl h
    · exact .inr ⟨_, ‹_›, h⟩

/-- What every instruction's updates keep, every instruction keeps, EXR included. -/
theorem exec_keeps_of_forall {Q : State → Prop} (h : ∀ i, KeptBy i Q) {i : Instr} {s t : State} (hs : Q s)
    (he : exec i s = .next t) : Q t := by
  by_cases hi : ∀ sr ign, i ≠ .exr sr ign
  · exact exec_keeps hi (h i) hs he
  · simp only [ne_eq, not_forall, not_not] at hi
    obtain ⟨sr, ign, rfl⟩ := hi
    rcases exec_exr_next he with he | ⟨j, -, he⟩
    · exact (h (.exr sr ign)).next (r := .trap .illegalInstruction s) hs he
    · exact execPlain_keeps (h j) hs he

theorem wf_storeKept : StoreKept State.Wf where
  setCur _ r h := h.setCur r
  mark _ n o _ h := h.mark n o
  drawn _ n h := h.drawn n
  request _ c h := h.request c
  writePlace _ _ _ hp h := h.writePlace hp

theorem wf_controlKept : ControlKept State.Wf where
  setPcr _ _ _ h := h.congr rfl rfl rfl
  setIoni _ _ h := h.congr rfl rfl rfl
  setPoni _ _ h := h.congr rfl rfl rfl
  setSexi _ _ h := h.congr rfl rfl rfl
  setPid _ _ h := h.congr rfl rfl rfl
  setPie _ _ h := h.congr rfl rfl rfl
  setIie _ _ h := h.congr rfl rfl rfl
  setGlobals _ _ _ _ h := h.congr rfl rfl rfl
  setRun _ _ h := h.congr rfl rfl rfl

/-- No update of any instruction breaks well-formedness. -/
theorem keptBy_wf (i : Instr) : KeptBy i State.Wf where
  toKept := wf_storeKept.toKept
  store _ := wf_storeKept
  setLevel _ _ lv r h := h.setLevel lv r
  control _ := wf_controlKept
  emit _ _ _ h := h.congr rfl rfl rfl
  setIic _ _ _ h := h.congr rfl rfl rfl

theorem exec_wf {i : Instr} {s t : State} (h : s.Wf) : exec i s = .next t → t.Wf :=
  exec_keeps_of_forall keptBy_wf h

theorem takeTrap_wf {c : IntCode} {s t : State} (h : s.Wf) : takeTrap c s = .next t → t.Wf :=
  wf_storeKept.next (b := s) (r := .trap c s) h

/-- A host event: another agent's write goes to installed memory or nowhere (R742). -/
theorem State.Wf.takeEvent {s : State} (h : s.Wf) (e : HostEvent) : (s.takeEvent e).Wf := by
  cases e with
  | deviceRequest lv => exact h.congr rfl rfl rfl
  | operatorStart => exact h.congr rfl rfl rfl
  | agentWrite pa v =>
    simp only [State.takeEvent]
    split
    · exact h.writePlace ‹_›
    · exact h
  | parityError => exact wf_storeKept.requestIfEnabled h _
  | powerFailing => exact wf_storeKept.requestIfEnabled h _

theorem State.Wf.foldl_takeEvent {s : State} (h : s.Wf) (es : List HostEvent) : (es.foldl State.takeEvent s).Wf := by
  induction es generalizing s with
  | nil => exact h
  | cons e es ih => exact ih (h.takeEvent e)

theorem State.Wf.takeEvents {s : State} (h : s.Wf) : s.takeEvents.Wf :=
  State.Wf.foldl_takeEvent (s := s.setInbox s.inbox.tail) (h.congr rfl rfl rfl) _

theorem State.Wf.front {s : State} (h : s.Wf) : s.front.Wf := by
  unfold State.front
  rw [State.select_eq]
  exact h.takeEvents.congr rfl rfl rfl

theorem fetchInstr_wf {s : State} (h : s.Wf) : (fetchInstr s).All State.Wf :=
  (Res.All.bind (locate_wf h _ _ _) fun _ _ _ k => k : (fetchWord s).All State.Wf).bind fun _ _ _ k => by
    split <;> exact k

/-- Settles O14: the host's events, the fetch, the trap and the instruction each keep well-formedness (R700). -/
theorem stepKeepsWf : Obligations.StepKeepsWf := by
  unfold Obligations.StepKeepsWf
  intro s t h hstep
  unfold step at hstep
  cases hrun : s.run with
  | stopped =>
    rw [hrun] at hstep
    cases hstep
    exact h.takeEvents
  | running =>
    simp only [hrun, stepWith] at hstep
    have hf := fetchInstr_wf h.front
    cases e : fetchInstr s.front with
    | ok i u =>
      rw [e] at hf hstep
      exact exec_wf hf hstep
    | trap c u =>
      rw [e] at hf hstep
      exact takeTrap_wf hf hstep
    | stop r => simp [e] at hstep

/-- Settles O13: both stores are empty at reset, and the default parameters are legal. -/
theorem resetWf : Obligations.ResetWf where
  params := by decide
  blockLenBits := by decide
  mem := by decide
  pt := by decide
  memInstalled := by simp [State.reset]
  ptInstalled := by simp [State.reset]

/-! ## Instructions that do not store -/

theorem SameBytesButMarks.refl (s : State) : SameBytesButMarks s s := ⟨fun _ => rfl, fun _ _ _ => rfl⟩

theorem SameBytesButMarks.trans {s t u : State} (h : SameBytesButMarks s t) (k : SameBytesButMarks t u) :
    SameBytesButMarks s u :=
  ⟨fun n => (k.1 n).trans (h.1 n), fun n i hn => (k.2 n i hn).trans (h.2 n i hn)⟩

/-- Updates that leave both stores. -/
theorem SameBytesButMarks.congr {s t u : State} (h : SameBytesButMarks s t) (hm : u.mem = t.mem) (hp : u.pt = t.pt) :
    SameBytesButMarks s u :=
  h.trans ⟨fun n => by rw [hm], fun n i _ => by rw [hp]⟩

theorem sameBytesButMarks_kept (s : State) : Kept (SameBytesButMarks s) where
  setCur _ _ h := h.congr rfl rfl
  mark u _ o hn h := h.trans (u.mark_onlyMarks hn o).bytes
  drawn _ _ h := h.congr rfl rfl
  request _ _ h := h.congr rfl rfl

theorem sameBytesButMarks_controlKept (s : State) : ControlKept (SameBytesButMarks s) where
  setPcr _ _ _ h := h.congr rfl rfl
  setIoni _ _ h := h.congr rfl rfl
  setPoni _ _ h := h.congr rfl rfl
  setSexi _ _ h := h.congr rfl rfl
  setPid _ _ h := h.congr rfl rfl
  setPie _ _ h := h.congr rfl rfl
  setIie _ _ h := h.congr rfl rfl
  setGlobals _ _ _ _ h := h.congr rfl rfl
  setRun _ _ h := h.congr rfl rfl

/-- Only the instructions of `mayStore` can change a byte other than by a mark. -/
theorem keptBy_sameBytesButMarks {i : Instr} (hi : mayStore i = false) (s : State) :
    KeptBy i (SameBytesButMarks s) where
  toKept := sameBytesButMarks_kept s
  store hm := absurd hm (by simp [hi])
  setLevel _ _ _ _ h := h.congr rfl rfl
  control _ := sameBytesButMarks_controlKept s
  emit _ _ _ h := h.congr rfl rfl
  setIic _ _ _ h := h.congr rfl rfl

/-- Settles O17: `exec_keeps` for the bytes of both stores but for marks. -/
theorem onlyStoresWriteMemory : Obligations.OnlyStoresWriteMemory := by
  unfold Obligations.OnlyStoresWriteMemory
  intro i s t hi he
  exact exec_keeps (ne_exr_of_class (fun _ _ => rfl) hi) (keptBy_sameBytesButMarks hi s)
    (SameBytesButMarks.refl s) he

/-! ## Places -/

/-- The page-table range of 16-bit addresses is from 0o177000 = 65024 on (R86, R97). -/
theorem inTableRange_iff (a : Word) : inTableRange a = true ↔ 65024 ≤ a.toNat := by
  simp [inTableRange, BitVec.le_def]

theorem inTableRange_eq_false {a : Word} (h : a.toNat < 65024) : inTableRange a = false := by
  rw [← Bool.not_eq_true, inTableRange_iff]
  omega

/-- The word of the page tables that an address of their range names (R97). -/
theorem tableIndex_toNat {a : Word} (h : 65024 ≤ a.toNat) : (tableIndex a).toNat = a.toNat - 65024 := by
  have := a.isLt
  simp only [tableIndex, BitVec.extractLsb'_toNat, Nat.shiftRight_zero]
  omega

theorem flatPlace_low {a : Word} (h : a.toNat < 65024) : flatPlace a = .phys (a.setWidth 24) := by
  simp [flatPlace, inTableRange_eq_false h]

theorem flatPlace_high {a : Word} (h : 65024 ≤ a.toNat) : flatPlace a = .table (tableIndex a) := by
  simp [flatPlace, (inTableRange_iff a).2 h]

theorem toNat_setWidth_24 (a : Word) : (a.setWidth 24).toNat = a.toNat := by
  have := a.isLt
  simp only [BitVec.toNat_setWidth]
  omega

theorem State.sameBytesBut_writePlace (s : State) (v : Word) (p : TransTarget) :
    SameBytesBut (cellsOf p) s (s.writePlace v p) :=
  fun _ hc => s.byteOf_writePlace_ne v p hc

theorem State.sameSystem_writePlace (s : State) (v : Word) (p : TransTarget) : SameSystem s (s.writePlace v p) := by
  constructor <;> simp

theorem State.readPlace_writePlace_same (s : State) (v : Word) (p : TransTarget) :
    (s.writePlace v p).readPlace p = v := by
  rw [State.readPlace_writePlace, if_pos rfl]

/-- Settles O19: with memory management off every access goes to its flat place (`locate_flat`). -/
theorem flatMemory : Obligations.FlatMemory := by
  unfold Obligations.FlatMemory
  intro s a v h
  refine ⟨memRead_flat h a, fun ha => ?_, fun ha => ?_, s.writePlace v (flatPlace a), memWrite_flat h a v, ?_,
    fun b hb => ?_, s.sameBytesBut_writePlace v _, s.writePlace_regs v _, s.sameSystem_writePlace v _⟩
  · rw [State.flatWord, flatPlace_low ha, State.readPlace, toNat_setWidth_24]
    rfl
  · rw [State.flatWord, flatPlace_high ha, State.readPlace, tableIndex_toNat ha]
    rfl
  · rw [State.flatWord_writePlace, if_pos rfl]
  · rw [State.flatWord_writePlace, if_neg hb]

/-! ## Accesses that fault, that reach the page tables, that write -/

/-- With memory management off an address beyond installed memory faults (R84, R90). -/
theorem locate_out_of_range {s : State} {a : Word} (hoff : s.poni = false) (ha : a.toNat < 65024)
    (hout : s.params.physWords ≤ a.toNat) (k : AccessKind) (g : TableTag) :
    locate k g a s = .trap .memoryOutOfRange s := by
  have hi : s.installed (.phys (a.setWidth 24)) = false := by
    simp only [State.installed, toNat_setWidth_24, decide_eq_false_iff_not]
    omega
  simp [locate, inTableRange_eq_false ha, hoff, hi]

/-- An entitled program reaches the page tables, and nothing is marked (R97). -/
theorem locate_table {s : State} {a : Word} (he : s.entitled = true) (ha : 65024 ≤ a.toNat) (k : AccessKind)
    (g : TableTag) : locate k g a s = .ok (.table (tableIndex a)) s := by
  simp [locate, he, (inTableRange_iff a).2 ha]

/-- Settles O20: the faults are those of the place, and a write that answers is marks and the word at the place. -/
theorem accessPlaces : Obligations.AccessPlaces := by
  unfold Obligations.AccessPlaces
  refine ⟨⟨?_, ?_⟩, ?_, ?_⟩
  · intro s a v hoff ha hout
    simp [memRead, memReadVia, memWrite, memWriteVia, locate_out_of_range hoff ha hout]
  · intro s b a v pa hp hout
    have hi : s.installed (s.physPlace b a) = false := by
      rw [hp, State.installed, decide_eq_false_iff_not]
      omega
    exact ⟨physRead_out hi, physWrite_out hi⟩
  · intro k g a s he ha
    exact ⟨tableIndex a, tableIndex_toNat ha, locate_table he ha k g⟩
  · intro g a v s t h
    obtain ⟨p, u, hl, rfl⟩ := memWriteVia_ok h
    exact ⟨p, u, hl, locate_ok hl, rfl, u.readPlace_writePlace_same v p, u.sameBytesBut_writePlace v p⟩

/-! ## Translated accesses -/

/-- The bits of the page-table words after a mark: those set before, and the mark (R95, R96). -/
theorem State.getLsbD_mark (s : State) {n : Nat} (hn : n < 16) (o : Option (BitVec 9)) (j m : Nat) :
    ((s.mark n o).pt.wordAt j).getLsbD m = true ↔
      (s.pt.wordAt j).getLsbD m = true ∨ (m = n ∧ ∃ i, o = some i ∧ j = i.toNat) := by
  cases o with
  | none => simp [State.mark]
  | some i =>
    simp only [State.mark, State.setPt_pt, Memory.wordAt_writeWord, Option.some.injEq, exists_eq_left']
    by_cases hj : j = i.toNat
    · rw [if_pos hj, getLsbD_setBit, ← hj]
      by_cases hm : m = n
      · simp [hm, hn]
      · simp [hm]
    · simp [hj]

/-- With memory management on, only an entitled program's page-table range is kept from `Translate` (R90, R97). -/
theorem locate_translated {s : State} {a : Word} (hon : s.poni = true)
    (ha : a.toNat < 65024 ∨ s.entitled = false) (k : AccessKind) (g : TableTag) :
    locate k g a s = translated k g a s := by
  have hr : (inTableRange a && s.entitled) = false := by
    rcases ha with ha | ha
    · simp [inTableRange_eq_false ha]
    · simp [ha]
  simp [locate, hr, hon]

/-- The marks of an access that `Translate` answers: PGU, and for a write WIP (R95, R96). -/
theorem State.getLsbD_translation_marks (s : State) (k : AccessKind) (pgu wip : Option (BitVec 9)) (j m : Nat) :
    ((((s.mark 11 pgu).mark 12 (if k = .write then wip else none)).pt.wordAt j).getLsbD m = true) ↔
      (s.pt.wordAt j).getLsbD m = true ∨ (m = 11 ∧ ∃ i, pgu = some i ∧ j = i.toNat) ∨
        (m = 12 ∧ k = .write ∧ ∃ i, wip = some i ∧ j = i.toNat) := by
  rw [State.getLsbD_mark _ (by decide), State.getLsbD_mark _ (by decide), or_assoc]
  by_cases hk : k = .write <;> simp [hk]

/-- Settles O21: outside what R97 diverts, `locate` is `translated`, whose marks are PGU and WIP. -/
theorem translatedAccess : Obligations.TranslatedAccess := by
  unfold Obligations.TranslatedAccess
  intro k g a s hon ha answer
  have hanswer : s.params.translate ⟨s.transView, k, s.tableTag g, a⟩ = answer := rfl
  rw [locate_translated hon ha]
  refine ⟨fun target pgu wip e => ⟨fun hi => ?_, fun hi => ?_⟩, fun e => ?_, fun e => ?_⟩
  · simp [translated, hanswer, e, hi]
  · have hl : translated k g a s =
        .ok (s.physWidth target) ((s.mark 11 pgu).mark 12 (if k = .write then wip else none)) := by
      simp [translated, hanswer, e, hi]
    have marks := s.getLsbD_translation_marks k pgu wip
    refine ⟨_, hl, locate_ok ((locate_translated hon ha k g).trans hl), fun i hi => ?_, fun i hk hi => ?_,
      fun j m ht hs => ?_⟩
    · exact (marks _ _).2 (.inr (.inl ⟨rfl, i, hi, rfl⟩))
    · exact (marks _ _).2 (.inr (.inr ⟨rfl, hk, i, hi, rfl⟩))
    · rcases (marks j m).1 ht with hm | ⟨hm, i, hi, hj⟩ | ⟨hm, hk, i, hi, hj⟩
      · simp [hs] at hm
      · exact ⟨i, hj, .inl ⟨hm, hi⟩⟩
      · exact ⟨i, hj, .inr ⟨hm, hk, hi⟩⟩
  · simp [translated, hanswer, e]
  · simp [translated, hanswer, e]

/-! ## Physical addresses -/

/-- The bank a bank register names: 8 bits in the extended mode, 3 bits in the normal one (R85). -/
theorem State.bank_toNat (s : State) (b : Word) :
    (s.bank b).toNat = b.toNat % (if s.sexi = true then 256 else 8) := by
  unfold State.bank
  split
  · simp
  · have : b.toNat % 8 < 256 := by omega
    simp [this]

/-- Outside the page-table range of bank 0 the bank stands above the 16 address bits (R85). -/
theorem State.physPlace_phys {s : State} {b a : Word} (h : (s.bank b).toNat ≠ 0 ∨ a.toNat < 65024) :
    s.physPlace b a = .phys (s.bank b ++ a) := by
  rcases h with h | h
  · have hb : s.bank b ≠ 0 := fun e => h (by rw [e]; rfl)
    rw [State.physPlace, decide_eq_false hb]
    rfl
  · simp [State.physPlace, inTableRange_eq_false h]

theorem State.physPlace_table {s : State} {b a : Word} (hb : (s.bank b).toNat = 0) (ha : 65024 ≤ a.toNat) :
    s.physPlace b a = .table (tableIndex a) := by
  have hb : s.bank b = 0 := BitVec.eq_of_toNat_eq hb
  simp [State.physPlace, hb, (inTableRange_iff a).2 ha]

theorem bank_append_toNat (c : BitVec 8) (a : Word) : (c ++ a).toNat = c.toNat * 65536 + a.toNat := by
  rw [BitVec.toNat_append, ← Nat.shiftLeft_add_eq_or_of_lt a.isLt, Nat.shiftLeft_eq]

/-- Settles O22: the composition of bank and address, and the word at the place. -/
theorem physicalAddress : Obligations.PhysicalAddress := by
  unfold Obligations.PhysicalAddress
  intro s b a v
  dsimp only
  rw [← State.bank_toNat]
  refine ⟨fun h => ⟨s.bank b ++ a, State.physPlace_phys h, bank_append_toNat _ a⟩,
    fun hb ha => ⟨tableIndex a, State.physPlace_table hb ha, tableIndex_toNat ha⟩, fun hi => ?_⟩
  exact ⟨physRead_installed hi, _, physWrite_installed hi, s.readPlace_writePlace_same v _,
    s.sameBytesBut_writePlace v _, s.writePlace_regs v _, s.sameSystem_writePlace v _⟩

end Sys2Proof.Machine

namespace Sys2Proof

/-! # Decoding and encoding are inverse

Each format of 30_encoding.md is a concatenation of fields. For each of them two laws are stated once: what its fields
are (the decoder reads back what the encoder wrote), and that a word is the concatenation of its own fields (the encoder
writes back what the decoder read). The decoder's tables are then read row by row with these laws. -/

/-! ## Fields of a concatenation

The library's lemmas on `extractLsb'` of a concatenation, tagged for `simp` and with the width of the whole left out
of the pattern: here it stands as the numeral 16. -/

@[simp] theorem extractLsb'_append_high {a b lo n : Nat} {x : BitVec a} {y : BitVec b} (h : b ≤ lo) :
    (no_index (x ++ y)).extractLsb' lo n = x.extractLsb' (lo - b) n :=
  BitVec.extractLsb'_append_eq_of_le h

@[simp] theorem extractLsb'_append_low {a b lo n : Nat} {x : BitVec a} {y : BitVec b} (h : lo + n ≤ b) :
    (no_index (x ++ y)).extractLsb' lo n = y.extractLsb' lo n :=
  BitVec.extractLsb'_append_eq_of_add_le h

/-- A bit is a field of length 1. -/
theorem ofBool_getLsbD {v : Nat} (x : BitVec v) (n : Nat) : BitVec.ofBool (x.getLsbD n) = x.extractLsb' n 1 := by
  ext i hi
  obtain rfl : i = 0 := by omega
  simp

theorem ofBool_getLsbD_field (w : Word) (n : Nat) : BitVec.ofBool (w.getLsbD n) = field w n 1 := ofBool_getLsbD w n

theorem getElem_of_field {w : Word} {n : Nat} {b : Bool} (hn : n < 16) (h : field w n 1 = BitVec.ofBool b) :
    w[n] = b := by
  rw [← ofBool_getLsbD_field] at h
  simpa [BitVec.getLsbD_eq_getElem hn] using congrArg (BitVec.getLsbD · 0) h

/-- Two neighbouring fields are one. -/
theorem field_append {w : Word} {hi lo k n : Nat} (h : hi = lo + n) :
    field w hi k ++ field w lo n = field w lo (k + n) :=
  BitVec.extractLsb'_append_extractLsb'_eq_extractLsb' h

theorem field_whole (w : Word) : field w 0 16 = w := BitVec.extractLsb'_eq_self

/-! ## Codes -/

@[simp] theorem RegCode.ofBits_bits (r : RegCode) : RegCode.ofBits r.bits = r := by cases r <;> rfl

@[simp] theorem RegCode.bits_ofBits : ∀ c : BitVec 3, (RegCode.ofBits c).bits = c := by decide

@[simp] theorem SkipCond.ofBits_bits (c : SkipCond) : SkipCond.ofBits c.bits = c := by cases c <;> rfl

@[simp] theorem SkipCond.bits_ofBits : ∀ c : BitVec 3, (SkipCond.ofBits c).bits = c := by decide

@[simp] theorem ShiftType.ofBits_bits (t : ShiftType) : ShiftType.ofBits t.bits = t := by cases t <;> rfl

@[simp] theorem ShiftType.bits_ofBits : ∀ c : BitVec 2, (ShiftType.ofBits c).bits = c := by decide

@[simp] theorem bits_srField (w : Word) : (srField w).bits = field w 3 3 := RegCode.bits_ofBits _

@[simp] theorem bits_drField (w : Word) : (drField w).bits = field w 0 3 := RegCode.bits_ofBits _

/-! ## The fields of a word of each format -/

section

variable (m : AddrMode) (n : BitVec 8) (cm1 cld adc ad1 : Bool) (sr dr : RegCode) (bn lv : BitVec 4) (low : BitVec 3)
variable (ty : ShiftType) (cnt : BitVec 6)

@[simp] theorem field_memWord_op (op : BitVec 5) : field (memWord op m) 11 5 = op := by simp [field, memWord]

@[simp] theorem memField_memWord (op : BitVec 5) : memField (memWord op m) = m := by
  have hx : (memWord op m)[10] = m.x := getElem_of_field (by decide) (by simp [field, memWord])
  have hi : (memWord op m)[9] = m.i := getElem_of_field (by decide) (by simp [field, memWord])
  have hb : (memWord op m)[8] = m.b := getElem_of_field (by decide) (by simp [field, memWord])
  have hd : field (memWord op m) 0 8 = m.disp := by simp [field, memWord]
  simp [memField, hx, hi, hb, hd]

@[simp] theorem field_argWord_op (op : BitVec 8) : field (argWord op n) 11 5 = op.extractLsb' 3 5 := by
  simp [field, argWord]

@[simp] theorem field_argWord_kind (op : BitVec 8) : field (argWord op n) 8 3 = op.extractLsb' 0 3 := by
  simp [field, argWord]

@[simp] theorem field_argWord_arg (op : BitVec 8) : field (argWord op n) 0 8 = n := by simp [field, argWord]

@[simp] theorem field_ropWord_op (k : BitVec 3) : field (ropWord k cm1 cld sr dr) 11 5 = 25 := by simp [field, ropWord]

@[simp] theorem field_ropWord_kind (k : BitVec 3) : field (ropWord k cm1 cld sr dr) 8 2 = k.extractLsb' 0 2 := by
  simp [field, ropWord]

@[simp] theorem getElem_ropWord_arith (k : BitVec 3) : (ropWord k cm1 cld sr dr)[10] = k[2] :=
  getElem_of_field (by decide) (by
    rw [← BitVec.getLsbD_eq_getElem, ofBool_getLsbD]
    simp [field, ropWord])

@[simp] theorem getElem_ropWord_cm1 (k : BitVec 3) : (ropWord k cm1 cld sr dr)[7] = cm1 :=
  getElem_of_field (by decide) (by simp [field, ropWord])

@[simp] theorem getElem_ropWord_cld (k : BitVec 3) : (ropWord k cm1 cld sr dr)[6] = cld :=
  getElem_of_field (by decide) (by simp [field, ropWord])

@[simp] theorem srField_ropWord (k : BitVec 3) : srField (ropWord k cm1 cld sr dr) = sr := by
  simp [srField, field, ropWord]

@[simp] theorem drField_ropWord (k : BitVec 3) : drField (ropWord k cm1 cld sr dr) = dr := by
  simp [drField, field, ropWord]

@[simp] theorem field_raddWord_op : field (raddWord adc ad1 cm1 cld sr dr) 11 5 = 25 := field_ropWord_op ..

/-- The decoder reads the six operands of an arithmetic register operation. -/
@[simp] theorem decodeRop_raddWord :
    decodeRop (raddWord adc ad1 cm1 cld sr dr) = decodeRadd adc ad1 cm1 cld sr dr := by
  have arith : (raddWord adc ad1 cm1 cld sr dr)[10] = true :=
    getElem_of_field (by decide) (by simp [field, raddWord, ropWord])
  have hadc : (raddWord adc ad1 cm1 cld sr dr)[9] = adc :=
    getElem_of_field (by decide) (by simp [field, raddWord, ropWord])
  have had1 : (raddWord adc ad1 cm1 cld sr dr)[8] = ad1 :=
    getElem_of_field (by decide) (by simp [field, raddWord, ropWord])
  have hcm1 : (raddWord adc ad1 cm1 cld sr dr)[7] = cm1 := getElem_ropWord_cm1 ..
  have hcld : (raddWord adc ad1 cm1 cld sr dr)[6] = cld := getElem_ropWord_cld ..
  have hsr : srField (raddWord adc ad1 cm1 cld sr dr) = sr := srField_ropWord ..
  have hdr : drField (raddWord adc ad1 cm1 cld sr dr) = dr := drField_ropWord ..
  simp [decodeRop, arith, hadc, had1, hcm1, hcld, hsr, hdr]

@[simp] theorem field_bopWord_op (type : BitVec 4) : field (bopWord type bn dr) 11 5 = 31 := by simp [field, bopWord]

@[simp] theorem field_bopWord_type (type : BitVec 4) : field (bopWord type bn dr) 7 4 = type := by simp [field, bopWord]

@[simp] theorem field_bopWord_bn (type : BitVec 4) : field (bopWord type bn dr) 3 4 = bn := by simp [field, bopWord]

@[simp] theorem drField_bopWord (type : BitVec 4) : drField (bopWord type bn dr) = dr := by
  simp [drField, field, bopWord]

@[simp] theorem field_shiftWord_op (reg : BitVec 2) : field (shiftWord reg ty cnt) 11 5 = 27 := by
  simp [field, shiftWord]

@[simp] theorem getElem_shiftWord (reg : BitVec 2) : (shiftWord reg ty cnt)[6] = false :=
  getElem_of_field (by decide) (by simp [field, shiftWord])

@[simp] theorem field_shiftWord_type (reg : BitVec 2) : field (shiftWord reg ty cnt) 9 2 = ty.bits := by
  simp [field, shiftWord]

@[simp] theorem field_shiftWord_reg (reg : BitVec 2) : field (shiftWord reg ty cnt) 7 2 = reg := by
  simp [field, shiftWord]

@[simp] theorem field_shiftWord_cnt (reg : BitVec 2) : field (shiftWord reg ty cnt) 0 6 = cnt := by
  simp [field, shiftWord]

@[simp] theorem field_srWord_op (op : BitVec 10) : field (srWord op sr low) 11 5 = op.extractLsb' 5 5 := by
  simp [field, srWord]

@[simp] theorem field_srWord_kind (op : BitVec 10) : field (srWord op sr low) 6 5 = op.extractLsb' 0 5 := by
  simp [field, srWord]

@[simp] theorem field_srWord_skip (op : BitVec 10) : field (srWord op sr low) 6 2 = op.extractLsb' 0 2 := by
  simp [field, srWord]

@[simp] theorem srField_srWord (op : BitVec 10) : srField (srWord op sr low) = sr := by simp [srField, field, srWord]

@[simp] theorem field_srWord_low (op : BitVec 10) : field (srWord op sr low) 0 3 = low := by simp [field, srWord]

@[simp] theorem field_deltaWord_op (op : BitVec 10) (d : BitVec 3) :
    field (deltaWord op d low) 11 5 = op.extractLsb' 5 5 := by simp [field, deltaWord]

@[simp] theorem field_deltaWord_kind (op : BitVec 10) (d : BitVec 3) :
    field (deltaWord op d low) 6 5 = op.extractLsb' 0 5 := by simp [field, deltaWord]

@[simp] theorem field_deltaWord_skip (op : BitVec 10) (d : BitVec 3) :
    field (deltaWord op d low) 6 2 = op.extractLsb' 0 2 := by simp [field, deltaWord]

@[simp] theorem field_deltaWord_delta (op : BitVec 10) (d : BitVec 3) : field (deltaWord op d low) 3 3 = d := by
  simp [field, deltaWord]

@[simp] theorem field_deltaWord_type (op : BitVec 10) (d : BitVec 3) : field (deltaWord op d low) 0 3 = low := by
  simp [field, deltaWord]

@[simp] theorem field_lvlWord_op (op : BitVec 9) : field (lvlWord op lv low) 11 5 = op.extractLsb' 4 5 := by
  simp [field, lvlWord]

@[simp] theorem field_lvlWord_kind (op : BitVec 9) : field (lvlWord op lv low) 8 3 = op.extractLsb' 1 3 := by
  simp [field, lvlWord]

@[simp] theorem getElem_lvlWord (op : BitVec 9) : (lvlWord op lv low)[7] = op[0] :=
  getElem_of_field (by decide) (by
    rw [← BitVec.getLsbD_eq_getElem, ofBool_getLsbD]
    simp [field, lvlWord])

@[simp] theorem field_lvlWord_level (op : BitVec 9) : field (lvlWord op lv low) 3 4 = lv := by simp [field, lvlWord]

@[simp] theorem field_lvlWord_low (op : BitVec 9) : field (lvlWord op lv low) 0 3 = low := by simp [field, lvlWord]

end

/-! ## Decoding the word of an instruction -/

/-- A RADD word that spells no named form decodes to RADD (R144). -/
theorem decodeRadd_of_not_named {adc ad1 cm1 cld : Bool} {sr dr : RegCode}
    (h : Instr.raddIsNamed adc ad1 cm1 cld sr = false) :
    decodeRadd adc ad1 cm1 cld sr dr = .radd adc ad1 cm1 cld sr dr := by
  unfold decodeRadd
  split <;> simp_all [Instr.raddIsNamed]

/-- A COPY word that spells neither RCLR nor EXIT decodes to COPY (R144). -/
theorem decodeRadd_copy {sr dr : RegCode} (h : Instr.copyIsNamed sr dr = false) :
    decodeRadd false false false true sr dr = .copy sr dr := by
  simp only [Instr.copyIsNamed, Bool.or_eq_false_iff] at h
  simp [decodeRadd, h.1, h.2]

/-- Row by row: the decoder finds the row of the instruction's word and reads back its operands. -/
theorem decodeWord_encodeWord {i : Instr} (h : i.wf = true) : decodeWord (encodeWord i) = some i := by
  cases i with
  | stz | sta | stt | stx | std | ldd | stf | ldf | min | lda | ldt | ldx | add | sub | and | ora | fad | fsb | fmu
  | fdv | mpy | jmp | jpl => simp [encodeWord, decodeWord]
  | jap | jan | jaz | jaf | jpc | jnc | jxz | jxn => simp [encodeWord, decodeWord, decodeCjmp]
  | sab | saa | sat | sax | aab | aaa | aat | aax => simp [encodeWord, decodeWord, decodeArg]
  | wait | nlz | dnz | mon => simp [encodeWord, decodeWord, decodeSys]
  | skp => simp [encodeWord, decodeWord, srField, drField, field]
  | swap | rand | rexo | rora => simp [encodeWord, decodeWord, decodeRop]
  | radd adc ad1 cm1 cld sr dr =>
    simp [encodeWord, decodeWord, decodeRadd_of_not_named (show Instr.raddIsNamed adc ad1 cm1 cld sr = false by
      simpa [Instr.wf] using h)]
  | copy sr dr =>
    simp [encodeWord, decodeWord, decodeRadd_copy (show Instr.copyIsNamed sr dr = false by simpa [Instr.wf] using h)]
  | rclr | rinc | rdcr | rsub => simp [encodeWord, decodeWord, decodeRadd]
  | bsetZro | bsetOne | bsetBcm | bsetBac | bskpZro | bskpOne | bskpBcm | bskpBac | bstc | bsta | bldc | blda | banc
  | band | borc | bora => simp [encodeWord, decodeWord, decodeBop]
  | sht | shd | sha | sad => simp [encodeWord, decodeWord, decodeShift]
  | iot | iox => simp [encodeWord, decodeWord, field]
  | tra | trr | mcl | mst => simp [encodeWord, decodeWord, decodeSys, decodeIreg, field]
  | exr | rdiv => simp [encodeWord, decodeWord, decodeExt]
  | rmpy => simp [encodeWord, decodeWord, decodeExt, drField]
  | lasb | sasb | lacb | sacb | lxsb | lxcb | szsb | szcb => simp [encodeWord, decodeWord, decodeExt, decodeBank]
  | ldatx | ldxtx | lddtx | ldbtx | statx | stztx | stdtx => simp [encodeWord, decodeWord, decodeExt, decodeTx]
  | srb | lrb => simp [encodeWord, decodeWord, decodeSys, decodeRegBlk]
  | irw | irr => simp [encodeWord, decodeWord, decodeSys, drField]
  | _ => rfl

theorem decode_wordBytes_append {w : Word} {i : Instr} (h : decodeWord w = some i) (rest : List Byte) :
    decode (wordBytes w ++ rest) = .ok (i, rest) := by
  have whole : w.extractLsb' 8 8 ++ w.extractLsb' 0 8 = w := (field_append rfl).trans (field_whole w)
  simp only [wordBytes, List.cons_append, List.nil_append, decode]
  rw [whole, h]

/-- Settles O1: the word of an instruction decodes to it, and the bytes of the word give the word back. -/
theorem decodeOfEncode : Obligations.DecodeOfEncode := by
  unfold Obligations.DecodeOfEncode
  intro i rest h
  exact decode_wordBytes_append (decodeWord_encodeWord h) rest

/-! ## A word is the concatenation of its fields -/

section

variable {w : Word}

theorem memWord_fields {op : BitVec 5} (hop : field w 11 5 = op) : memWord op (memField w) = w := by
  subst hop
  simp only [memWord, memField, ofBool_getLsbD_field, field_append]
  exact field_whole w

theorem argWord_fields {op : BitVec 5} {k : BitVec 3} {code : BitVec 8} (hop : field w 11 5 = op)
    (hk : field w 8 3 = k) (hcode : code = op ++ k) : argWord code (field w 0 8) = w := by
  subst hop hk hcode
  simp only [argWord, field_append]
  exact field_whole w

theorem skpWord_fields (hop : field w 11 5 = 24) (hk : field w 6 2 = 0) :
    encodeWord (.skp (SkipCond.ofBits (field w 8 3)) (srField w) (drField w)) = w := by
  simp only [encodeWord, SkipCond.bits_ofBits, bits_srField, bits_drField]
  rw [show 0b11000#5 = field w 11 5 from hop.symm, show 0#2 = field w 6 2 from hk.symm]
  simp only [field_append]
  exact field_whole w

theorem ropWord_fields (hop : field w 11 5 = 25) :
    ropWord (field w 8 3) (w.getLsbD 7) (w.getLsbD 6) (srField w) (drField w) = w := by
  simp only [ropWord, ofBool_getLsbD_field, bits_srField, bits_drField]
  rw [show 0b11001#5 = field w 11 5 from hop.symm]
  simp only [field_append]
  exact field_whole w

/-- A logical register operation: bit 10 is 0. -/
theorem ropWord_logical_fields (hop : field w 11 5 = 25) (h10 : w.getLsbD 10 = false) {k : BitVec 2}
    {kind : BitVec 3} (hk : field w 8 2 = k) (hkind : kind = 0#1 ++ k) :
    ropWord kind (w.getLsbD 7) (w.getLsbD 6) (srField w) (drField w) = w := by
  have whole : kind = field w 8 3 := by
    rw [hkind, show 0#1 = field w 10 1 by rw [← ofBool_getLsbD_field, h10]; rfl, ← hk]
    exact field_append rfl
  rw [whole]
  exact ropWord_fields hop

/-- An arithmetic register operation: bit 10 is 1. -/
theorem raddWord_fields (hop : field w 11 5 = 25) (h10 : w.getLsbD 10 = true) :
    raddWord (w.getLsbD 9) (w.getLsbD 8) (w.getLsbD 7) (w.getLsbD 6) (srField w) (drField w) = w := by
  have kind : 1#1 ++ BitVec.ofBool (w.getLsbD 9) ++ BitVec.ofBool (w.getLsbD 8) = field w 8 3 := by
    rw [show 1#1 = field w 10 1 by rw [← ofBool_getLsbD_field, h10]; rfl]
    simp only [ofBool_getLsbD_field, field_append]
  rw [raddWord, kind]
  exact ropWord_fields hop

theorem bopWord_fields {type : BitVec 4} (hop : field w 11 5 = 31) (htype : field w 7 4 = type) :
    bopWord type (field w 3 4) (drField w) = w := by
  subst htype
  simp only [bopWord, bits_drField]
  rw [show 0b11111#5 = field w 11 5 from hop.symm]
  simp only [field_append]
  exact field_whole w

theorem shiftWord_fields {reg : BitVec 2} (hop : field w 11 5 = 27) (h6 : w.getLsbD 6 = false)
    (hreg : field w 7 2 = reg) : shiftWord reg (ShiftType.ofBits (field w 9 2)) (field w 0 6) = w := by
  subst hreg
  simp only [shiftWord, ShiftType.bits_ofBits]
  rw [show 0b11011#5 = field w 11 5 from hop.symm, show 0#1 = field w 6 1 by rw [← ofBool_getLsbD_field, h6]; rfl]
  simp only [field_append]
  exact field_whole w

theorem ioWord_fields {op : BitVec 5} (hop : field w 11 5 = op) : op ++ field w 0 11 = w := by
  subst hop
  exact (field_append rfl).trans (field_whole w)

theorem srWord_fields {op k : BitVec 5} {code : BitVec 10} (hop : field w 11 5 = op) (hk : field w 6 5 = k)
    (hcode : code = op ++ k) : srWord code (srField w) (field w 0 3) = w := by
  subst hop hk hcode
  simp only [srWord, bits_srField, field_append]
  exact field_whole w

theorem deltaWord_fields {op k : BitVec 5} {code : BitVec 10} {type : BitVec 3} (hop : field w 11 5 = op)
    (hk : field w 6 5 = k) (htype : field w 0 3 = type) (hcode : code = op ++ k) :
    deltaWord code (field w 3 3) type = w := by
  subst hop hk htype hcode
  simp only [deltaWord, field_append]
  exact field_whole w

theorem iregWord_fields {op : BitVec 5} {k : BitVec 3} {kind : BitVec 4} {code : BitVec 12}
    (hop : field w 11 5 = op) (hk : field w 8 3 = k) (hkind : field w 4 4 = kind) (hcode : code = op ++ k ++ kind) :
    code ++ field w 0 4 = w := by
  subst hop hk hkind hcode
  simp only [field_append]
  exact field_whole w

theorem lvlWord_fields {op : BitVec 5} {k low : BitVec 3} {b : Bool} {code : BitVec 9} (hop : field w 11 5 = op)
    (hk : field w 8 3 = k) (h7 : w.getLsbD 7 = b) (hlow : field w 0 3 = low)
    (hcode : code = op ++ k ++ BitVec.ofBool b) : lvlWord code (field w 3 4) low = w := by
  subst hop hk h7 hlow hcode
  simp only [lvlWord, ofBool_getLsbD_field, field_append]
  exact field_whole w

end

/-! ## Encoding what a word decodes to -/

/-- The word is that of the instruction, which is well formed. -/
structure Encodes (i : Instr) (w : Word) : Prop where
  word : encodeWord i = w
  wf : i.wf = true

/-- The word is that of the instruction it decodes to, if it decodes. -/
def Reencodes (o : Option Instr) (w : Word) : Prop := ∀ i, o = some i → Encodes i w

theorem Encodes.reencodes {i : Instr} {w : Word} (h : Encodes i w) : Reencodes (some i) w := by
  rintro _ ⟨⟩
  exact h

theorem reencodes_none (w : Word) : Reencodes none w := nofun

/-- A row of a table of fixed words. -/
theorem Reencodes.row {a : Instr} {c w : Word} {r : Option Instr} (ha : Encodes a c) (hr : Reencodes r w) :
    Reencodes (if w = c then some a else r) w := by
  split
  · subst c
    exact ha.reencodes
  · exact hr

theorem decodeExtFixed_reencodes (w : Word) : Reencodes (decodeExtFixed w) w := by
  unfold decodeExtFixed
  repeat refine .row ⟨rfl, rfl⟩ ?_
  exact reencodes_none w

theorem decodeSysFixed_reencodes (w : Word) : Reencodes (decodeSysFixed w) w := by
  unfold decodeSysFixed
  repeat refine .row ⟨rfl, rfl⟩ ?_
  exact reencodes_none w

section

variable {w : Word}

theorem decodeCjmp_encodes (hop : field w 11 5 = 22) : Encodes (decodeCjmp w) w := by
  unfold decodeCjmp
  split
  case h_8 =>
    have last : field w 8 3 = 7 := by simp only [imp_false] at *; bv_omega
    exact ⟨argWord_fields hop last (by decide), rfl⟩
  all_goals exact ⟨argWord_fields hop ‹_› (by decide), rfl⟩

theorem decodeArg_encodes (hop : field w 11 5 = 30) : Encodes (decodeArg w) w := by
  unfold decodeArg
  split
  case h_8 =>
    have last : field w 8 3 = 7 := by simp only [imp_false] at *; bv_omega
    exact ⟨argWord_fields hop last (by decide), rfl⟩
  all_goals exact ⟨argWord_fields hop ‹_› (by decide), rfl⟩

theorem decodeBop_encodes (hop : field w 11 5 = 31) : Encodes (decodeBop w) w := by
  unfold decodeBop
  split
  case h_16 =>
    have last : field w 7 4 = 15 := by simp only [imp_false] at *; bv_omega
    exact ⟨bopWord_fields hop last, rfl⟩
  all_goals exact ⟨bopWord_fields hop ‹_›, rfl⟩

theorem decodeShift_reencodes (hop : field w 11 5 = 27) : Reencodes (decodeShift w) w := by
  unfold decodeShift
  split
  · exact reencodes_none w
  · have h6 : w.getLsbD 6 = false := by simpa using ‹¬w.getLsbD 6 = true›
    split
    case h_4 =>
      have last : field w 7 2 = 3 := by simp only [imp_false] at *; bv_omega
      exact Encodes.reencodes ⟨shiftWord_fields hop h6 last, rfl⟩
    all_goals exact Encodes.reencodes ⟨shiftWord_fields hop h6 ‹_›, rfl⟩

/-- The decoder gives the narrowest row of a RADD word, with all its bits (R144; log 18). -/
theorem decodeRadd_encodes (adc ad1 cm1 cld : Bool) (sr dr : RegCode) :
    Encodes (decodeRadd adc ad1 cm1 cld sr dr) (raddWord adc ad1 cm1 cld sr dr) := by
  unfold decodeRadd
  split
  case h_1 =>
    split
    next hz =>
      obtain rfl : sr = .zero := by simpa using hz
      exact ⟨rfl, rfl⟩
    next hz =>
      split
      next hlp =>
        obtain ⟨rfl, rfl⟩ : sr = .l ∧ dr = .p := by simpa using hlp
        exact ⟨rfl, rfl⟩
      next hlp => exact ⟨rfl, by simp [Instr.wf, Instr.copyIsNamed, hz, hlp]⟩
  case h_2 | h_3 =>
    split
    next hz =>
      obtain rfl : sr = .zero := by simpa using hz
      exact ⟨rfl, rfl⟩
    next hz => exact ⟨rfl, by simp [Instr.wf, Instr.raddIsNamed, hz]⟩
  case h_4 => exact ⟨rfl, rfl⟩
  case h_5 => exact ⟨rfl, by grind [Instr.wf, Instr.raddIsNamed]⟩

theorem decodeRop_encodes (hop : field w 11 5 = 25) : Encodes (decodeRop w) w := by
  unfold decodeRop
  split
  next h10 =>
    obtain ⟨word, wf⟩ :=
      decodeRadd_encodes (w.getLsbD 9) (w.getLsbD 8) (w.getLsbD 7) (w.getLsbD 6) (srField w) (drField w)
    exact ⟨word.trans (raddWord_fields hop h10), wf⟩
  next h10 =>
    have h10 : w.getLsbD 10 = false := by simpa using h10
    split
    case h_4 =>
      have last : field w 8 2 = 3 := by simp only [imp_false] at *; bv_omega
      exact ⟨ropWord_logical_fields hop h10 last (by decide), rfl⟩
    all_goals exact ⟨ropWord_logical_fields hop h10 ‹_› (by decide), rfl⟩

theorem decodeBank_encodes (hop : field w 11 5 = 24) (hk : field w 6 5 = 7) : Encodes (decodeBank w) w := by
  unfold decodeBank
  split
  case h_8 =>
    have last : field w 0 3 = 7 := by simp only [imp_false] at *; bv_omega
    exact ⟨deltaWord_fields hop hk last (by decide), rfl⟩
  all_goals exact ⟨deltaWord_fields hop hk ‹_› (by decide), rfl⟩

theorem decodeTx_reencodes (hop : field w 11 5 = 24) (hk : field w 6 5 = 27) : Reencodes (decodeTx w) w := by
  unfold decodeTx
  split
  case h_8 => exact reencodes_none w
  all_goals exact Encodes.reencodes ⟨deltaWord_fields hop hk ‹_› (by decide), rfl⟩

theorem decodeExt_reencodes (hop : field w 11 5 = 24) : Reencodes (decodeExt w) w := by
  unfold decodeExt
  split
  case h_1 hk => exact Encodes.reencodes ⟨srWord_fields hop hk (by decide), rfl⟩
  case h_2 hk => exact (decodeBank_encodes hop hk).reencodes
  case h_3 hk =>
    have word : srWord 0o1412 (srField w) (drField w).bits = w := by
      rw [bits_drField]
      exact srWord_fields hop hk (by decide)
    exact Encodes.reencodes ⟨word, rfl⟩
  case h_4 hk => exact Encodes.reencodes ⟨srWord_fields hop hk (by decide), rfl⟩
  case h_5 hk => exact decodeTx_reencodes hop hk
  case h_6 => exact decodeExtFixed_reencodes w

theorem decodeIreg_reencodes (hop : field w 11 5 = 26) (hk : field w 8 3 = 0) : Reencodes (decodeIreg w) w := by
  unfold decodeIreg
  split
  case h_5 => exact reencodes_none w
  all_goals exact Encodes.reencodes ⟨iregWord_fields hop hk ‹_› (by decide), rfl⟩

theorem decodeRegBlk_reencodes (hop : field w 11 5 = 26) (hk : field w 8 3 = 5) : Reencodes (decodeRegBlk w) w := by
  unfold decodeRegBlk
  split
  next h7 =>
    split
    next hlow => exact Encodes.reencodes ⟨lvlWord_fields hop hk h7 hlow (by decide), rfl⟩
    next => exact reencodes_none w
  next h7 =>
    have h7 : w.getLsbD 7 = false := by simpa using h7
    split
    next hlow => exact Encodes.reencodes ⟨lvlWord_fields hop hk h7 hlow (by decide), rfl⟩
    next => exact reencodes_none w

theorem decodeSys_reencodes (hop : field w 11 5 = 26) : Reencodes (decodeSys w) w := by
  unfold decodeSys
  split
  case h_1 hk => exact decodeIreg_reencodes hop hk
  case h_2 => exact decodeSysFixed_reencodes w
  case h_6 hk => exact decodeRegBlk_reencodes hop hk
  case h_8 =>
    have hk : field w 8 3 = 7 := by simp only [imp_false] at *; bv_omega
    have hlow := (bits_drField w).symm
    split
    next h7 => exact Encodes.reencodes ⟨lvlWord_fields hop hk h7 hlow (by decide), rfl⟩
    next h7 => exact Encodes.reencodes ⟨lvlWord_fields hop hk (by simpa using h7) hlow (by decide), rfl⟩
  all_goals exact Encodes.reencodes ⟨argWord_fields hop ‹_› (by decide), rfl⟩

/-- Row by row: what the decoder reads at a row, that row's encoder writes back. -/
theorem decodeWord_reencodes (w : Word) : Reencodes (decodeWord w) w := by
  unfold decodeWord
  split
  case h_23 hop => exact (decodeCjmp_encodes hop).reencodes
  case h_25 hop =>
    split
    next hk => exact Encodes.reencodes ⟨skpWord_fields hop hk, rfl⟩
    next => exact decodeExt_reencodes hop
  case h_26 hop => exact (decodeRop_encodes hop).reencodes
  case h_27 hop => exact decodeSys_reencodes hop
  case h_28 hop => exact decodeShift_reencodes hop
  case h_29 hop | h_30 hop => exact Encodes.reencodes ⟨ioWord_fields hop, rfl⟩
  case h_31 hop => exact (decodeArg_encodes hop).reencodes
  case h_32 =>
    have last : field w 11 5 = 31 := by simp only [imp_false] at *; bv_omega
    exact (decodeBop_encodes last).reencodes
  all_goals exact Encodes.reencodes ⟨memWord_fields ‹_›, rfl⟩

end

/-- Settles O2: by the rows of the decoder's tables. -/
theorem encodeOfDecode : Obligations.EncodeOfDecode := by
  unfold Obligations.EncodeOfDecode
  intro w i h
  obtain ⟨word, wf⟩ := decodeWord_reencodes w i h
  exact ⟨word, wf⟩

/-- Settles O3: the decoder run on each printed word. -/
theorem printedWordsDecode : Obligations.PrintedWordsDecode := by
  unfold Obligations.PrintedWordsDecode
  exact ⟨rfl, rfl, rfl, rfl, rfl, rfl, rfl, rfl, rfl, rfl, rfl, rfl, rfl, rfl, rfl, rfl, rfl, rfl, rfl, rfl, rfl⟩

end Sys2Proof

namespace Sys2Proof.Machine

open Sys2Proof Sys2Proof.Config

/-! # Where the model refuses by name -/

theorem finish_refused {s : State} {r : Res Unit} {x : Refusal} (h : r = .stop x) : finish s r = .refused x := by
  rw [h, finish_stop]

theorem finish_privileged {s : State} {body : Res Unit} {x : Refusal} (he : s.entitled = true) (h : body = .stop x) :
    finish s (privileged s body) = .refused x :=
  finish_refused ((privileged_entitled he body).trans h)

/-- MCL and MST accept no number but those of STS, PID and PIE (R532, R533). -/
theorem State.maskedReg_eq_none {s : State} {r : BitVec 4}
    (h : ∀ reg ∈ ([.sts, .pid, .pie] : List WriteReg), s.writeReg r ≠ some reg) : s.maskedReg r = none := by
  unfold State.maskedReg
  rw [Option.filter_eq_none_iff]
  intro reg hreg hmask
  exact h reg (by simpa [or_assoc] using hmask) hreg

theorem maskedWrite_unassigned {s : State} {r : BitVec 4} (h : s.maskedReg r = none) (f : Word → Word → Word) :
    maskedWrite f r s = .stop (.internalRegisterUnassigned r) := by
  simp only [maskedWrite, h]

theorem stsUpper_zero {bn : BitVec 4} (h : 8 ≤ bn.toNat) : stsUpper bn .zero = true := by simp [stsUpper, h]

theorem bitOp_stsUpper {bn : BitVec 4} (h : 8 ≤ bn.toNat) {f : Bool → Bool → Option Bool × Option Bool}
    {s : State} : bitOp f bn .zero s = .stop (.stsUpperBit bn) :=
  if_pos (stsUpper_zero h)

theorem bitSkip_stsUpper {bn : BitVec 4} (h : 8 ≤ bn.toNat) {f : Bool → Bool → Bool} {s : State} :
    bitSkip f bn .zero s = .stop (.stsUpperBit bn) :=
  if_pos (stsUpper_zero h)

theorem asciiRoles_unassigned {code : BitVec 3} (h : 4 < code.toNat) (n : Nat) : asciiRoles code n = none := by
  unfold asciiRoles
  split
  case h_6 => rfl
  all_goals exact absurd h (by decide)

theorem exec_pack_unassigned {s : State} (h : 4 < s.cur.op1.asciiCode.toNat) :
    exec .pack s = .refused (.asciiCodeUnassigned s.cur.op1.asciiCode) :=
  finish_refused (by rw [asciiRoles_unassigned h])

theorem exec_upack_unassigned {s : State} (h : 4 < s.cur.op2.asciiCode.toNat) :
    exec .upack s = .refused (.asciiCodeUnassigned s.cur.op2.asciiCode) :=
  finish_refused (by rw [asciiRoles_unassigned h])

/-- Settles O60: each part stops before it changes anything. -/
theorem undescribedStops : Obligations.UndescribedStops := by
  unfold Obligations.UndescribedStops
  intro s
  refine ⟨rfl, fun n => ⟨fun he => ?iot, fun he => ?iotPrivileged⟩, fun he => ?entitled, fun bn hbn => ?bits,
    exec_pack_unassigned, exec_upack_unassigned⟩
  case iot => exact congrArg (finish s) (privileged_entitled he _)
  case iotPrivileged => exact congrArg (finish s) (privileged_not he _)
  case entitled =>
    have sintran (m : String) :
        finish s (privileged s (.stop (.sintranUndefined m))) = .refused (.sintranUndefined m) :=
      finish_privileged he rfl
    refine ⟨sintran _, sintran _, sintran _, sintran _, sintran _, sintran _, sintran _, sintran _, fun hm => ?lwcs,
      fun r => ⟨fun hr => ?tra, fun hr => ?trr, fun hr => ?masked⟩⟩
    case lwcs => exact finish_privileged he (by rw [hm])
    case tra => exact finish_privileged he (by rw [hr])
    case trr => exact finish_privileged he (by rw [hr])
    case masked =>
      have unassigned := maskedWrite_unassigned (State.maskedReg_eq_none hr)
      exact ⟨finish_privileged he (unassigned _), finish_privileged he (unassigned _)⟩
  case bits =>
    have op {f} : finish s (bitOp f bn .zero s) = .refused (.stsUpperBit bn) := finish_refused (bitOp_stsUpper hbn)
    have skip {f} : finish s (bitSkip f bn .zero s) = .refused (.stsUpperBit bn) :=
      finish_refused (bitSkip_stsUpper hbn)
    exact ⟨op, op, op, op, skip, skip, skip, skip, op, op, op, op, op, op, op, op⟩

end Sys2Proof.Machine

namespace Sys2Proof.Machine

open Sys2Proof Sys2Proof.Config

/-! # Memory reference: addresses, loads, stores, faults, and the arithmetic of ADD, SUB and MPY -/

/-! ## An instruction part by part -/

theorem finish_bind_ok {α : Type} {s t : State} {r : Res α} {a : α} (h : r = .ok a t) (f : α → State → Res Unit) :
    finish s (r.bind f) = finish s (f a t) := by
  rw [h, Res.bind_ok]

theorem finish_bind_trap {α : Type} {s t : State} {r : Res α} {c : IntCode} (h : r = .trap c t)
    (f : α → State → Res Unit) : finish s (r.bind f) = takeTrap c t := by
  rw [h, Res.bind_trap, finish_trap]

/-- The registers written last, in a state where accesses have left the registers as they were. -/
theorem finish_setCur {s t : State} (hc : t.cur = s.cur) (f : RegSet → RegSet)
    (hz : (f s.cur).sts.getLsbD 3 = s.cur.sts.getLsbD 3) :
    finish s (.ok () (t.setCur (f t.cur))) = .next (t.setCur (f s.cur)) := by
  rw [hc]
  exact finish_ok_z hz

/-! ## Forming an address -/

/-- Mode 4, the one without P, is not indirect (R200). -/
theorem State.baseAddr_indirect (s : State) {m : AddrMode} (hi : m.i = true) :
    s.baseAddr m = (if m.b then s.cur.b else s.cur.p) + sext8 m.disp := by
  simp [State.baseAddr, hi]

theorem effAddr_direct {m : AddrMode} (hi : m.i = false) (s : State) :
    effAddr m s = .ok (s.indexed m (s.baseAddr m)) s := by
  simp [effAddr, hi]

/-- The index is X as it was before the indirect read (R200). -/
theorem effAddr_indirect_ok {m : AddrMode} {s t : State} {v : Word} (hi : m.i = true)
    (h : memRead (s.baseAddr m) s = .ok v t) : effAddr m s = .ok (s.indexed m v) t := by
  simp [effAddr, hi, h, State.indexed, (memRead_ok h).cur]

theorem effAddr_indirect_trap {m : AddrMode} {s t : State} {c : IntCode} (hi : m.i = true)
    (h : memRead (s.baseAddr m) s = .trap c t) : effAddr m s = .trap c s := by
  simp [effAddr, hi, h, memRead_trap h]

/-- Settles O23: the direct modes by the sum alone, the indirect ones by what the indirect read answers. -/
theorem effectiveAddress : Obligations.EffectiveAddress := by
  unfold Obligations.EffectiveAddress
  intro d s e
  refine ⟨effAddr_direct rfl s, effAddr_direct rfl s, ?modeX, effAddr_direct rfl s,
    fun v s1 h => ⟨memRead_ok h, effAddr_indirect_ok rfl h, effAddr_indirect_ok rfl h⟩,
    fun v s1 h => ⟨memRead_ok h, effAddr_indirect_ok rfl h, effAddr_indirect_ok rfl h⟩,
    fun c s1 x h => ?pFault, fun c s1 x h => ?bFault⟩
  case modeX =>
    have sum : s.indexed ⟨true, false, false, d⟩ (s.baseAddr ⟨true, false, false, d⟩) = s.cur.x + e := by
      simp [State.indexed, State.baseAddr, sext8, e, BitVec.add_comm]
    rw [← sum]
    exact effAddr_direct rfl s
  case pFault => exact effAddr_indirect_trap rfl (by rw [State.baseAddr_indirect s rfl]; exact h)
  case bFault => exact effAddr_indirect_trap rfl (by rw [State.baseAddr_indirect s rfl]; exact h)

/-! ## What accesses leave as it was -/

/-- The registers of every level, and everything but the stores and what is between machine and host, are as they
were: what memory accesses leave, writes included. -/
structure SameMachine (s t : State) : Prop where
  regs : t.regs = s.regs
  system : SameSystem s t

theorem OnlyMarks.sameMachine {s t : State} (h : OnlyMarks s t) : SameMachine s t := ⟨h.regs, h.system⟩

theorem State.sameMachine_writePlace (s : State) (v : Word) (p : TransTarget) : SameMachine s (s.writePlace v p) :=
  ⟨s.writePlace_regs v p, s.sameSystem_writePlace v p⟩

section

variable {s t u : State} (h : SameMachine s t)
include h

theorem SameMachine.trans (k : SameMachine t u) : SameMachine s u where
  regs := k.regs.trans h.regs
  system := by
    constructor
    all_goals simp only [k.system.pcr, k.system.pil, k.system.ioni, k.system.poni, k.system.sexi, k.system.pid,
      k.system.pie, k.system.iic, k.system.iie, k.system.pvl, k.system.stbnk, k.system.stsrt, k.system.cmbnk,
      k.system.run, k.system.params, h.system.pcr, h.system.pil, h.system.ioni, h.system.poni, h.system.sexi,
      h.system.pid, h.system.pie, h.system.iic, h.system.iie, h.system.pvl, h.system.stbnk, h.system.stsrt,
      h.system.cmbnk, h.system.run, h.system.params]

theorem SameMachine.level (lv : Level) : t.level lv = s.level lv := by simp [State.level, h.regs]

theorem SameMachine.cur : t.cur = s.cur := by rw [State.cur, State.cur, h.system.pil, h.level]

/-- The registers of the running level written after the accesses. -/
theorem SameMachine.sameOtherLevels_setCur (r : RegSet) : SameOtherLevels s (t.setCur r) := fun lv hlv => by
  rw [State.setCur_level_ne _ _ (h.system.pil ▸ hlv), h.level]

theorem SameMachine.sameSystem_setCur (r : RegSet) : SameSystem s (t.setCur r) := { h.system with }

end

theorem SameBytesBut.setCur {cells : List (Store × Nat)} {s t : State} (h : SameBytesBut cells s t) (r : RegSet) :
    SameBytesBut cells s (t.setCur r) := fun c hc => by rw [State.byteOf_setCur, h c hc]

theorem SameBytesBut.trans {cells cells' : List (Store × Nat)} {s t u : State} (h : SameBytesBut cells s t)
    (k : SameBytesBut cells' t u) : SameBytesBut (cells ++ cells') s u := fun c hc => by
  rw [List.mem_append, not_or] at hc
  exact (k c hc.2).trans (h c hc.1)

theorem memWrite_sameMachine {a v : Word} {s t : State} (h : memWrite a v s = .ok () t) : SameMachine s t := by
  obtain ⟨p, u, hl, rfl⟩ := memWrite_ok h
  exact (locate_ok hl).sameMachine.trans (u.sameMachine_writePlace v p)

theorem memWriteList_sameMachine {vs : List Word} {a : Word} {s t : State} (h : memWriteList a vs s = .ok () t) :
    SameMachine s t := by
  induction vs generalizing a s with
  | nil =>
    cases h
    exact (OnlyMarks.refl _).sameMachine
  | cons v vs ih =>
    obtain ⟨_, u, hw, hrest⟩ := Res.bind_eq_ok.1 h
    exact (memWrite_sameMachine hw).trans (ih hrest)

/-! ## Several words at ascending addresses (R202) -/

theorem add_one_add_one (a : Word) : a + 1 + 1 = a + 2 := BitVec.add_assoc a 1 1

theorem memWriteList_cons_ok {a v : Word} {s t : State} (h : memWrite a v s = .ok () t) (vs : List Word) :
    memWriteList a (v :: vs) s = memWriteList (a + 1) vs t := by
  rw [memWriteList, h, Res.bind_ok]

theorem memWriteList_cons_trap {a v : Word} {s t : State} {c : IntCode} (h : memWrite a v s = .trap c t)
    (vs : List Word) : memWriteList a (v :: vs) s = .trap c t := by
  rw [memWriteList, h, Res.bind_trap]

theorem memWriteList_two {a v w : Word} {s s1 s2 : State} (h1 : memWrite a v s = .ok () s1)
    (h2 : memWrite (a + 1) w s1 = .ok () s2) : memWriteList a [v, w] s = .ok () s2 := by
  rw [memWriteList_cons_ok h1, memWriteList_cons_ok h2, memWriteList]

theorem memWriteList_three {a u v w : Word} {s s1 s2 s3 : State} (h1 : memWrite a u s = .ok () s1)
    (h2 : memWrite (a + 1) v s1 = .ok () s2) (h3 : memWrite (a + 2) w s2 = .ok () s3) :
    memWriteList a [u, v, w] s = .ok () s3 := by
  rw [memWriteList_cons_ok h1]
  exact memWriteList_two h2 (by rw [add_one_add_one, h3])

theorem read32_ok {ea u v : Word} {s s1 s2 : State} (h1 : memRead ea s = .ok u s1)
    (h2 : memRead (ea + 1) s1 = .ok v s2) : read32 ea s = .ok (u ++ v) s2 := by
  simp only [read32, h1, h2, Res.bind_ok]

theorem read48_ok {ea u v w : Word} {s s1 s2 s3 : State} (h1 : memRead ea s = .ok u s1)
    (h2 : memRead (ea + 1) s1 = .ok v s2) (h3 : memRead (ea + 2) s2 = .ok w s3) :
    read48 ea s = .ok (u ++ v ++ w) s3 := by
  simp only [read48, h1, h2, h3, Res.bind_ok]

theorem read32_trap_first {ea : Word} {s t : State} {c : IntCode} (h : memRead ea s = .trap c t) :
    read32 ea s = .trap c t := by
  simp [read32, h]

theorem read32_trap_second {ea u : Word} {s s1 t : State} {c : IntCode} (h1 : memRead ea s = .ok u s1)
    (h2 : memRead (ea + 1) s1 = .trap c t) : read32 ea s = .trap c t := by
  simp only [read32, h1, h2, Res.bind_ok, Res.bind_trap]

/-! ## Loads -/

/-- The one register an instruction loads, and P + 1: Z is never set by it. -/
theorem finish_loadWith {m : AddrMode} {s s1 : State} {v : Word} (h : operandWord m s = .ok v s1)
    {f : Word → RegSet → RegSet} (hz : (f v s.cur).sts.getLsbD 3 = s.cur.sts.getLsbD 3) :
    finish s (loadWith m f s) = .next (s1.setCur (f v s.cur).advance) :=
  (finish_bind_ok h _).trans (finish_setCur (operandWord_ok h).cur (fun r => (f v r).advance) hz)

theorem RegSet.setAd_two (r : RegSet) (u v : Word) : r.setAd (u ++ v) = { r with a := u, d := v } := by
  simp [RegSet.setAd]

theorem RegSet.setFa48_three (r : RegSet) (u v w : Word) :
    r.setFa48 (u ++ v ++ w) = { r with t := u, a := v, d := w } := by
  simp [RegSet.setFa48]

/-- A double word into A and D, and P + 1. -/
theorem finish_loadAd {s t : State} (hc : t.cur = s.cur) (u v : Word) :
    finish s (.ok () (t.setCur (t.cur.setAd (u ++ v)).advance)) =
      .next (t.setCur { s.cur with a := u, d := v, p := s.cur.p + 1 }) := by
  rw [finish_setCur hc (fun r => (r.setAd (u ++ v)).advance) rfl, RegSet.setAd_two]
  rfl

/-- Three words into T, A and D, and P + 1. -/
theorem finish_loadTad {s t : State} (hc : t.cur = s.cur) (u v w : Word) :
    finish s (.ok () (t.setCur (t.cur.setFa48 (u ++ v ++ w)).advance)) =
      .next (t.setCur { s.cur with t := u, a := v, d := w, p := s.cur.p + 1 }) := by
  rw [finish_setCur hc (fun r => (r.setFa48 (u ++ v ++ w)).advance) rfl, RegSet.setFa48_three]
  rfl

theorem exec_ldd_trap {m : AddrMode} {s s1 t : State} {ea : Word} {c : IntCode} (he : effAddr m s = .ok ea s1)
    (h : read32 ea s1 = .trap c t) : exec (.ldd m) s = takeTrap c t :=
  (finish_bind_ok he _).trans (finish_bind_trap h _)

/-- Settles O27: the reads first, then the registers. -/
theorem loadsComplete : Obligations.LoadsComplete := by
  unfold Obligations.LoadsComplete
  refine ⟨fun m s s1 v h => ?one, fun m s s1 s2 s3 ea u v he h1 h2 => ?two, fun m s s1 s2 s3 ea u c he => ?fault⟩
  case one =>
    exact ⟨operandWord_ok h, finish_loadWith h rfl, finish_loadWith h rfl, finish_loadWith h rfl,
      finish_loadWith h rfl, finish_loadWith h rfl⟩
  case two =>
    have marks : OnlyMarks s s3 := ((effAddr_ok he).trans (memRead_ok h1)).trans (memRead_ok h2)
    exact ⟨marks, (finish_bind_ok he _).trans ((finish_bind_ok (read32_ok h1 h2) _).trans
      (finish_loadAd marks.cur u v))⟩
  case fault =>
    refine ⟨fun h => ⟨exec_ldd_trap he (read32_trap_first h), ?_⟩,
      fun h1 h2 => ⟨exec_ldd_trap he (read32_trap_second h1 h2), ?_⟩⟩
    · rw [memRead_trap h, (effAddr_ok he).regs]
    · rw [memRead_trap h2, (memRead_ok h1).regs, (effAddr_ok he).regs]

/-! ## Stores of one word -/

theorem finish_storeAt {m : AddrMode} {s s1 s2 : State} {ea : Word} {p : TransTarget}
    (he : effAddr m s = .ok ea s1) (hl : locate .write .untagged ea s1 = .ok p s2) (v : Word) :
    finish s (storeAt m v s) = .next ((s2.writePlace v p).setCur s.cur.advance) := by
  have hc : (s2.writePlace v p).cur = s.cur := by
    rw [State.writePlace_cur, (locate_ok hl).cur, (effAddr_ok he).cur]
  exact (finish_bind_ok he _).trans ((finish_bind_ok (memWrite_of_locate hl) _).trans
    (finish_setCur hc RegSet.advance rfl))

/-- The end of MIN: the skip when the incremented word is 0 (R216). -/
theorem min_advance (r : RegSet) (v : Word) :
    (if v + 1 = 0 then r.skip else r.advance) = { r with p := if v = 0o177777 then r.p + 2 else r.p + 1 } := by
  have zero_iff : v + 1 = 0 ↔ v = 0o177777 := by constructor <;> intro h <;> bv_omega
  by_cases h : v = 0o177777
  · rw [if_pos (zero_iff.2 h), if_pos h]
    rfl
  · rw [if_neg (mt zero_iff.1 h), if_neg h]
    rfl

theorem exec_min {m : AddrMode} {s s1 s2 s3 : State} {ea v : Word} {p : TransTarget}
    (he : effAddr m s = .ok ea s1) (hr : memRead ea s1 = .ok v s2) (hl : locate .write .untagged ea s2 = .ok p s3) :
    exec (.min m) s = .next ((s3.writePlace (v + 1) p).setCur
      { s.cur with p := if v = 0o177777 then s.cur.p + 2 else s.cur.p + 1 }) := by
  have hc : (s3.writePlace (v + 1) p).cur = s.cur := by
    rw [State.writePlace_cur, (locate_ok hl).cur, (memRead_ok hr).cur, (effAddr_ok he).cur]
  have written : exec (.min m) s = finish s (.ok () ((s3.writePlace (v + 1) p).setCur
      (if v + 1 = 0 then (s3.writePlace (v + 1) p).cur.skip else (s3.writePlace (v + 1) p).cur.advance))) :=
    (finish_bind_ok he _).trans ((finish_bind_ok hr _).trans (finish_bind_ok (memWrite_of_locate hl) _))
  rw [written, min_advance, hc]
  exact finish_ok_cur rfl

/-- Settles O24: the access of a store goes to one place, which holds the word afterwards. -/
theorem singleWordStores : Obligations.SingleWordStores := by
  unfold Obligations.SingleWordStores
  refine ⟨fun m s s1 s2 ea p he hl => ?store, fun m s s1 s2 s3 ea v p he hr hl => ?min⟩
  case store =>
    exact ⟨(effAddr_ok he).trans (locate_ok hl), finish_storeAt he hl _, finish_storeAt he hl _,
      finish_storeAt he hl _, finish_storeAt he hl _, fun v =>
        ⟨(State.readPlace_setCur _ _ p).trans (s2.readPlace_writePlace_same v p),
          (s2.sameBytesBut_writePlace v p).setCur _⟩⟩
  case min =>
    exact ⟨((effAddr_ok he).trans (memRead_ok hr)).trans (locate_ok hl), exec_min he hr hl,
      (State.readPlace_setCur _ _ p).trans (s3.readPlace_writePlace_same (v + 1) p),
      (s3.sameBytesBut_writePlace (v + 1) p).setCur _⟩

/-! ## Stores and loads of two and three words -/

theorem exec_stf_fp32 {s : State} (hf : s.params.fpFormat = .fp32) (m : AddrMode) :
    exec (.stf m) s = finish s (storeListAt m [s.cur.a, s.cur.d] s) := by
  show execStf m s = _
  simp only [execStf, hf]

theorem exec_stf_fp48 {s : State} (hf : s.params.fpFormat = .fp48) (m : AddrMode) :
    exec (.stf m) s = finish s (storeListAt m [s.cur.t, s.cur.a, s.cur.d] s) := by
  show execStf m s = _
  simp only [execStf, hf]

theorem finish_storeListAt {m : AddrMode} {s s1 t : State} {ea : Word} {vs : List Word}
    (he : effAddr m s = .ok ea s1) (hw : memWriteList ea vs s1 = .ok () t) :
    finish s (storeListAt m vs s) = .next (t.setCur { s.cur with p := s.cur.p + 1 }) := by
  have hc : t.cur = s.cur := ((effAddr_ok he).sameMachine.trans (memWriteList_sameMachine hw)).cur
  exact (finish_bind_ok he _).trans ((finish_bind_ok hw _).trans (finish_setCur hc RegSet.advance rfl))

theorem finish_storeListAt_trap {m : AddrMode} {s s1 t : State} {ea : Word} {vs : List Word} {c : IntCode}
    (he : effAddr m s = .ok ea s1) (hw : memWriteList ea vs s1 = .trap c t) :
    finish s (storeListAt m vs s) = takeTrap c t :=
  (finish_bind_ok he _).trans (finish_bind_trap hw _)

/-- LDF after its address is formed: no access changes the format of the CPU (R224). -/
theorem exec_ldf_fp32 {m : AddrMode} {s s1 : State} {ea : Word} (he : effAddr m s = .ok ea s1)
    (hf : s.params.fpFormat = .fp32) : exec (.ldf m) s =
      finish s ((read32 ea s1).bind fun v u => .ok () (u.setCur (u.cur.setFa32 v).advance)) := by
  show execLdf m s = _
  simp only [execLdf, he, Res.bind_ok, (effAddr_ok he).params, hf]

theorem exec_ldf_fp48 {m : AddrMode} {s s1 : State} {ea : Word} (he : effAddr m s = .ok ea s1)
    (hf : s.params.fpFormat = .fp48) : exec (.ldf m) s =
      finish s ((read48 ea s1).bind fun v u => .ok () (u.setCur (u.cur.setFa48 v).advance)) := by
  show execLdf m s = _
  simp only [execLdf, he, Res.bind_ok, (effAddr_ok he).params, hf]

/-- Consecutive addresses are different words, across the top of the address space too. -/
theorem flatWord_after_two (s : State) (a v w : Word) :
    let t := (s.writePlace v (flatPlace a)).writePlace w (flatPlace (a + 1))
    t.flatWord a = v ∧ t.flatWord (a + 1) = w := by
  have ne : a ≠ a + 1 := by bv_omega
  simp only [State.flatWord_writePlace, if_neg ne, if_true, and_self]

theorem flatWord_after_three (s : State) (a u v w : Word) :
    let t := ((s.writePlace u (flatPlace a)).writePlace v (flatPlace (a + 1))).writePlace w (flatPlace (a + 2))
    t.flatWord a = u ∧ t.flatWord (a + 1) = v ∧ t.flatWord (a + 2) = w := by
  have ne01 : a ≠ a + 1 := by bv_omega
  have ne02 : a ≠ a + 2 := by bv_omega
  have ne12 : a + 1 ≠ a + 2 := by bv_omega
  simp only [State.flatWord_writePlace, if_neg ne01, if_neg ne02, if_neg ne12, if_true, and_self]

/-- Settles O26: the words written one after the other, and with memory management off each at its flat place. -/
theorem multiWordTransfers : Obligations.MultiWordTransfers := by
  unfold Obligations.MultiWordTransfers
  refine ⟨fun m s s1 s2 s3 s4 ea he => ⟨fun h1 h2 => ?std, fun hf h1 h2 h3 => ?stf⟩,
    fun m s ea hflat he => ⟨?stdFlat, fun hf => ?stfFlat⟩,
    fun m s s1 s2 s3 s4 ea u v w he h1 h2 => ⟨fun hf => ?ldf32, fun hf h3 => ?ldf48⟩⟩
  case std =>
    have done := finish_storeListAt he (memWriteList_two h1 h2)
    exact ⟨done, fun hf => (exec_stf_fp32 hf m).trans done⟩
  case stf => exact (exec_stf_fp48 hf m).trans (finish_storeListAt he (memWriteList_three h1 h2 h3))
  case stdFlat =>
    have h1 := memWrite_flat hflat ea s.cur.a
    have h2 := memWrite_flat ((State.flat_writePlace s s.cur.a (flatPlace ea)).2 hflat) (ea + 1) s.cur.d
    have same := (memWrite_sameMachine h1).trans (memWrite_sameMachine h2)
    obtain ⟨word0, word1⟩ := flatWord_after_two s ea s.cur.a s.cur.d
    exact ⟨_, finish_storeListAt he (memWriteList_two h1 h2), State.setCur_cur _ _,
      (State.flatWord_setCur _ _ _).trans word0, (State.flatWord_setCur _ _ _).trans word1,
      same.sameOtherLevels_setCur _, same.sameSystem_setCur _,
      ((State.sameBytesBut_writePlace _ _ _).trans (State.sameBytesBut_writePlace _ _ _)).setCur _⟩
  case stfFlat =>
    have h1 := memWrite_flat hflat ea s.cur.t
    have flat1 := (State.flat_writePlace s s.cur.t (flatPlace ea)).2 hflat
    have h2 := memWrite_flat flat1 (ea + 1) s.cur.a
    have h3 := memWrite_flat ((State.flat_writePlace _ s.cur.a (flatPlace (ea + 1))).2 flat1) (ea + 2) s.cur.d
    have same := ((memWrite_sameMachine h1).trans (memWrite_sameMachine h2)).trans (memWrite_sameMachine h3)
    obtain ⟨word0, word1, word2⟩ := flatWord_after_three s ea s.cur.t s.cur.a s.cur.d
    exact ⟨_, (exec_stf_fp48 hf m).trans (finish_storeListAt he (memWriteList_three h1 h2 h3)), State.setCur_cur _ _,
      (State.flatWord_setCur _ _ _).trans word0, (State.flatWord_setCur _ _ _).trans word1,
      (State.flatWord_setCur _ _ _).trans word2, same.sameOtherLevels_setCur _, same.sameSystem_setCur _,
      (((State.sameBytesBut_writePlace _ _ _).trans (State.sameBytesBut_writePlace _ _ _)).trans
        (State.sameBytesBut_writePlace _ _ _)).setCur _⟩
  case ldf32 =>
    have marks : OnlyMarks s s3 := ((effAddr_ok he).trans (memRead_ok h1)).trans (memRead_ok h2)
    exact ⟨marks, (exec_ldf_fp32 he hf).trans ((finish_bind_ok (read32_ok h1 h2) _).trans
      (finish_loadAd marks.cur u v))⟩
  case ldf48 =>
    have marks : OnlyMarks s s4 :=
      (((effAddr_ok he).trans (memRead_ok h1)).trans (memRead_ok h2)).trans (memRead_ok h3)
    exact ⟨marks, (exec_ldf_fp48 he hf).trans ((finish_bind_ok (read48_ok h1 h2 h3) _).trans
      (finish_loadTad marks.cur u v w))⟩

/-! ## Faults of memory instructions -/

/-- The trap of forming an address is met in the state the instruction began in. -/
theorem effAddr_trap_self {m : AddrMode} {s t : State} {c : IntCode} (h : effAddr m s = .trap c t) :
    effAddr m s = .trap c s := by
  rw [h, effAddr_trap h]

theorem operandWord_trap_address {m : AddrMode} {s t : State} {c : IntCode} (h : effAddr m s = .trap c t) :
    operandWord m s = .trap c t := by
  rw [operandWord, h, Res.bind_trap]

theorem operandWord_trap_read {m : AddrMode} {s s1 t : State} {ea : Word} {c : IntCode}
    (he : effAddr m s = .ok ea s1) (h : memRead ea s1 = .trap c t) : operandWord m s = .trap c t := by
  rw [operandWord, he, Res.bind_ok, h]

theorem memRead_trap_of_locate {a : Word} {s t : State} {c : IntCode}
    (h : locate .read .untagged a s = .trap c t) : memRead a s = .trap c s := by
  rw [memRead, memReadVia, h, Res.bind_trap, locate_trap h]

theorem memWrite_trap_of_locate {a : Word} {s t : State} {c : IntCode}
    (h : locate .write .untagged a s = .trap c t) (v : Word) : memWrite a v s = .trap c s := by
  rw [memWrite, memWriteVia, h, Res.bind_trap, locate_trap h]

/-- The first word stored by STF, in either format, cannot be written. -/
theorem exec_stf_trap_first {m : AddrMode} {s s1 t : State} {ea : Word} {c : IntCode}
    (he : effAddr m s = .ok ea s1) (h : ∀ v, memWrite ea v s1 = .trap c t) : exec (.stf m) s = takeTrap c t := by
  cases hf : s.params.fpFormat with
  | fp32 => exact (exec_stf_fp32 hf m).trans (finish_storeListAt_trap he (memWriteList_cons_trap (h _) _))
  | fp48 => exact (exec_stf_fp48 hf m).trans (finish_storeListAt_trap he (memWriteList_cons_trap (h _) _))

/-- The floating operand at an address, in the format of the CPU, cannot be read: the fault, and the state it leaves. -/
structure FloatReadTrap (ea : Word) (s : State) (c : IntCode) (t : State) : Prop where
  fp32 : s.params.fpFormat = .fp32 → read32 ea s = .trap c t
  fp48 : s.params.fpFormat = .fp48 → read48 ea s = .trap c t

theorem FloatReadTrap.first {ea : Word} {s t : State} {c : IntCode} (h : memRead ea s = .trap c t) :
    FloatReadTrap ea s c t where
  fp32 _ := read32_trap_first h
  fp48 _ := by rw [read48, h, Res.bind_trap]

theorem FloatReadTrap.second {ea u : Word} {s s1 t : State} {c : IntCode} (h1 : memRead ea s = .ok u s1)
    (h2 : memRead (ea + 1) s1 = .trap c t) : FloatReadTrap ea s c t where
  fp32 _ := read32_trap_second h1 h2
  fp48 _ := by simp only [read48, h1, h2, Res.bind_ok, Res.bind_trap]

/-- Only the 48-bit format has a third word (R450). -/
theorem FloatReadTrap.third {ea u v : Word} {s s1 s2 t : State} {c : IntCode} (hf : s.params.fpFormat = .fp48)
    (h1 : memRead ea s = .ok u s1) (h2 : memRead (ea + 1) s1 = .ok v s2) (h3 : memRead (ea + 2) s2 = .trap c t) :
    FloatReadTrap ea s c t where
  fp32 h := by simp [hf] at h
  fp48 _ := by simp only [read48, h1, h2, h3, Res.bind_ok, Res.bind_trap]

/-- The instructions that read a floating operand are its fault (R452). -/
theorem FloatReadTrap.execs {m : AddrMode} {ea : Word} {s s1 t : State} {c : IntCode} (h : FloatReadTrap ea s1 c t)
    (he : effAddr m s = .ok ea s1) :
    exec (.ldf m) s = takeTrap c t ∧ exec (.fad m) s = takeTrap c t ∧ exec (.fsb m) s = takeTrap c t ∧
      exec (.fmu m) s = takeTrap c t ∧ exec (.fdv m) s = takeTrap c t := by
  have ldf : exec (.ldf m) s = takeTrap c t := by
    cases hf : s1.params.fpFormat with
    | fp32 => exact (exec_ldf_fp32 he ((effAddr_ok he).params ▸ hf)).trans (finish_bind_trap (h.fp32 hf) _)
    | fp48 => exact (exec_ldf_fp48 he ((effAddr_ok he).params ▸ hf)).trans (finish_bind_trap (h.fp48 hf) _)
  have float (f : FloatOp) : finish s (floatWith f m s) = takeTrap c t := by
    rw [floatWith, finish_bind_ok he]
    cases hf : s1.params.fpFormat with
    | fp32 => exact finish_bind_trap (h.fp32 hf) _
    | fp48 => exact finish_bind_trap (h.fp48 hf) _
  exact ⟨ldf, float _, float _, float _, float _⟩

/-- Settles O25: each part of an instruction that faults ends it, in the state that part was in. -/
theorem memoryFaults : Obligations.MemoryFaults := by
  unfold Obligations.MemoryFaults
  refine ⟨fun m s s1 s2 ea c => ⟨fun h => ?address, fun he h => ?write, fun he h => ?read⟩,
    fun m s s1 s2 s3 s4 ea u v c he h1 => ⟨fun h => ?minWrite, fun h => ?readSecond, fun hf h2 h => ?readThird⟩,
    fun m s s1 s2 s3 s4 ea c he => ⟨fun h1 h => ?adSecond, fun hf h1 => ⟨fun h => ?tadSecond, fun h2 h => ?tadThird⟩⟩⟩
  case address =>
    have own := effAddr_trap_self h
    have address {f : Word → State → Res Unit} : finish s ((effAddr m s).bind f) = takeTrap c s :=
      finish_bind_trap own f
    have load {f : Word → RegSet → RegSet} : finish s (loadWith m f s) = takeTrap c s :=
      finish_bind_trap (operandWord_trap_address own) _
    exact ⟨address, address, address, address, address, address, address, load, load, load, address, address, load,
      load, load, load, load, address, address, address, address, address, address⟩
  case write =>
    have fault := memWrite_trap_of_locate h
    have store (v : Word) : finish s (storeAt m v s) = takeTrap c s1 :=
      (finish_bind_ok he _).trans (finish_bind_trap (fault v) _)
    exact ⟨effAddr_ok he, store _, store _, store _, store _,
      finish_storeListAt_trap he (memWriteList_cons_trap (fault _) _), exec_stf_trap_first he fault⟩
  case read =>
    have fault := memRead_trap_of_locate h
    have load {f : Word → RegSet → RegSet} : finish s (loadWith m f s) = takeTrap c s1 :=
      finish_bind_trap (operandWord_trap_read he fault) _
    have min : exec (.min m) s = takeTrap c s1 := (finish_bind_ok he _).trans (finish_bind_trap fault _)
    obtain ⟨ldf, floats⟩ := (FloatReadTrap.first fault).execs he
    exact ⟨effAddr_ok he, load, load, load, exec_ldd_trap he (read32_trap_first fault), ldf, load, load, load, load,
      load, min, floats⟩
  case minWrite =>
    obtain rfl := memWrite_trap h
    exact ⟨(effAddr_ok he).trans (memRead_ok h1),
      (finish_bind_ok he _).trans ((finish_bind_ok h1 _).trans (finish_bind_trap h _))⟩
  case readSecond =>
    obtain rfl := memRead_trap h
    exact ⟨(effAddr_ok he).trans (memRead_ok h1), exec_ldd_trap he (read32_trap_second h1 h),
      (FloatReadTrap.second h1 h).execs he⟩
  case readThird =>
    obtain rfl := memRead_trap h
    exact ⟨((effAddr_ok he).trans (memRead_ok h1)).trans (memRead_ok h2),
      (FloatReadTrap.third ((effAddr_ok he).params ▸ hf) h1 h2 h).execs he⟩
  case adSecond =>
    obtain rfl := memWrite_trap h
    have fault : memWriteList ea [s.cur.a, s.cur.d] s1 = .trap c s3 := by
      rw [memWriteList_cons_ok h1, memWriteList_cons_trap h]
    exact ⟨rfl, ((effAddr_ok he).sameMachine.trans (memWrite_sameMachine h1)).regs, finish_storeListAt_trap he fault,
      fun hf => (exec_stf_fp32 hf m).trans (finish_storeListAt_trap he fault)⟩
  case tadSecond =>
    obtain rfl := memWrite_trap h
    have fault : memWriteList ea [s.cur.t, s.cur.a, s.cur.d] s1 = .trap c s3 := by
      rw [memWriteList_cons_ok h1, memWriteList_cons_trap h]
    exact ⟨rfl, ((effAddr_ok he).sameMachine.trans (memWrite_sameMachine h1)).regs,
      (exec_stf_fp48 hf m).trans (finish_storeListAt_trap he fault)⟩
  case tadThird =>
    obtain rfl := memWrite_trap h
    have fault : memWriteList ea [s.cur.t, s.cur.a, s.cur.d] s1 = .trap c s4 := by
      rw [memWriteList_cons_ok h1, memWriteList_cons_ok h2, add_one_add_one, memWriteList_cons_trap h]
    have same := ((effAddr_ok he).sameMachine.trans (memWrite_sameMachine h1)).trans (memWrite_sameMachine h2)
    exact ⟨rfl, same.regs, (exec_stf_fp48 hf m).trans (finish_storeListAt_trap he fault)⟩

/-! ## The flags of ADD, SUB and MPY -/

/-- The 16-bit adder writes the flags of R204. -/
theorem addFlags_addFlags (a b : Word) (cin : Bool) (f : Byte) : AddFlags a b cin f (addFlags a b cin f) where
  c := getLsbD_addFlags a b cin f 6
  q := (getLsbD_addFlags a b cin f 4).trans (addOverflow_eq a b cin)
  o := (getLsbD_addFlags a b cin f 5).trans (congrArg (· || f.getLsbD 5) (getLsbD_addFlags a b cin f 4).symm)
  rest n h4 h5 h6 := by rw [getLsbD_addFlags, if_neg h4, if_neg h5, if_neg h6]

/-- The carry of a subtraction says that there is no borrow (R231). -/
theorem addCarry_not (a v : Word) : addCarry a (~~~v) true = decide (v.toNat ≤ a.toNat) := by
  have := v.isLt
  simp only [addCarry, addExact, BitVec.toNat_not, Bool.toNat_true, decide_eq_decide]
  omega

theorem addWord_not (a v : Word) : addWord a (~~~v) true = a - v := by
  rw [addWord_eq, if_pos rfl, BitVec.sub_eq_add_neg, BitVec.neg_eq_not_add, BitVec.add_assoc]
  rfl

/-- The overflow of MPY in the integers (R234). -/
theorem mulOverflow_eq (a b : Word) : mulOverflow a b = decide (32767 < |a.toInt * b.toInt|) := by
  rw [mulOverflow, mulExact, Int.abs_eq_natAbs]
  exact decide_eq_decide.2 Int.ofNat_lt.symm

/-- Settles O28: the operand read, then the adder's or the multiplier's result and flags. -/
theorem addSubMultiply : Obligations.AddSubMultiply := by
  unfold Obligations.AddSubMultiply
  refine ⟨fun m s s1 v h => ⟨operandWord_ok h, ?add, ?sub⟩, fun m s s1 v h => ?mpy⟩
  case add =>
    have sum : addWord s.cur.a v false = s.cur.a + v := by simp [addWord_eq]
    refine ⟨addFlags s.cur.a v false s.cur.sts, ?_, addFlags_addFlags ..⟩
    rw [← sum]
    exact finish_loadWith h (getLsbD_addFlags s.cur.a v false s.cur.sts 3)
  case sub =>
    refine ⟨addFlags s.cur.a (~~~v) true s.cur.sts, ?_, addFlags_addFlags ..,
      (getLsbD_addFlags _ _ _ _ 6).trans (addCarry_not s.cur.a v)⟩
    rw [← addWord_not]
    exact finish_loadWith h (getLsbD_addFlags s.cur.a (~~~v) true s.cur.sts 3)
  case mpy =>
    have flag := getLsbD_overflowFlags (mulOverflow s.cur.a v) s.cur.sts
    refine ⟨overflowFlags (mulOverflow s.cur.a v) s.cur.sts, finish_loadWith h (flag 3), operandWord_ok h,
      (flag 4).trans (mulOverflow_eq s.cur.a v), ?_, fun n h4 h5 => ?_⟩
    · rw [flag 5, flag 4]
      rfl
    · rw [flag, if_neg h4, if_neg h5]

end Sys2Proof.Machine

namespace Sys2Proof.Machine

open Sys2Proof Sys2Proof.Config

/-! # Sequencing: jumps, skips and EXR -/

/-! ## Jumps -/

/-- The registers of a jump are written after its address is formed, from their values before (R250, R251). -/
theorem finish_jump {m : AddrMode} {s s1 : State} {ea : Word} (he : effAddr m s = .ok ea s1)
    {f : Word → RegSet → RegSet} (hz : (f ea s.cur).sts.getLsbD 3 = s.cur.sts.getLsbD 3) :
    finish s ((effAddr m s).bind fun a t => .ok () (t.setCur (f a t.cur))) = .next (s1.setCur (f ea s.cur)) :=
  (finish_bind_ok he _).trans (finish_setCur (effAddr_ok he).cur (f ea) hz)

/-- The next P of a conditional jump, for a condition of the model that means `c` (R252). -/
theorem RegSet.jumpIf_eq {cond : Bool} {c : Prop} [Decidable c] (h : cond = true ↔ c) (r : RegSet) (d : BitVec 8) :
    r.jumpIf cond d = { r with p := if c then r.p + d.signExtend 16 else r.p + 1 } := by
  by_cases hc : c
  · rw [if_pos hc, RegSet.jumpIf, if_pos (h.2 hc), sext8]
  · rw [if_neg hc, RegSet.jumpIf, if_neg (mt h.1 hc), RegSet.advance]

/-- A conditional jump completes: P is the target or the next address, and the flags stay. -/
theorem finish_jumpIf {cond : Bool} {c : Prop} [Decidable c] (h : cond = true ↔ c) {s : State} {r : RegSet}
    (hr : r.sts = s.cur.sts) (d : BitVec 8) :
    finish s (.ok () (s.setCur (r.jumpIf cond d))) =
      .next (s.setCur { r with p := if c then r.p + d.signExtend 16 else r.p + 1 }) := by
  rw [RegSet.jumpIf_eq h]
  exact finish_ok_cur hr

theorem msb_iff_toInt_neg (v : Word) : v.msb = true ↔ v.toInt < 0 := by
  rw [BitVec.msb_eq_toInt, decide_eq_true_iff]

/-- Settles O29: the address before the registers; each condition of the model in the integers. -/
theorem jumpsComplete : Obligations.JumpsComplete := by
  unfold Obligations.JumpsComplete
  refine ⟨fun m s s1 ea he => ?memory, fun d s => ?conditional⟩
  case memory =>
    exact ⟨effAddr_ok he, finish_jump he (f := fun a r => { r with p := a }) rfl,
      finish_jump he (f := fun a r => { r with l := r.p + 1, p := a }) rfl⟩
  case conditional =>
    exact ⟨finish_jumpIf (msb_iff_toInt_neg _) rfl d, finish_jumpIf decide_eq_true_iff rfl d,
      finish_jumpIf decide_eq_true_iff rfl d,
      finish_jumpIf (r := { s.cur with x := s.cur.x + 1 }) (msb_iff_toInt_neg _) rfl d,
      finish_jumpIf decide_eq_true_iff rfl d, finish_jumpIf (msb_iff_toInt_neg _) rfl d⟩

/-! ## Positive values, and the conditions of SKP -/

/-- "Positive" in the integers, with the open case at 0 (R253, R257). -/
theorem State.positive_iff (s : State) (v : Word) :
    s.positive v = true ↔ 0 < v.toInt ∨ (v = 0 ∧ s.params.japZeroJumps = true) := by
  by_cases hv : v = 0
  · subst hv
    simp [State.positive]
  · have nonzero : v.toInt ≠ 0 := fun h => hv (BitVec.toInt_inj.1 (h.trans BitVec.toInt_zero.symm))
    have sign : v.msb = false ↔ ¬v.toInt < 0 := by rw [← msb_iff_toInt_neg, Bool.not_eq_true]
    simp only [State.positive, Bool.and_eq_true, Bool.or_eq_true, Bool.not_eq_true', bne_iff_ne, ne_eq, hv,
      not_false_eq_true, true_or, and_true, false_and, or_false, sign]
    omega

section

variable (d v : Word)

theorem skipZero_iff : skipZero d v = true ↔ d = v := by
  rw [skipZero, addWord_not, decide_eq_true_iff, sub_eq_zero]

theorem skipSign_iff : skipSign d v = true ↔ (d - v).toInt < 0 := by
  rw [skipSign, addWord_not, msb_iff_toInt_neg]

theorem skipCarry_iff : skipCarry d v = true ↔ v.toNat ≤ d.toNat := by
  rw [skipCarry, addCarry_not, decide_eq_true_iff]

/-- The sign corrected by the overflow is the signed order (R261). -/
theorem skipSign_xor_skipOverflow_iff : (skipSign d v ^^ skipOverflow d v) = true ↔ d.toInt < v.toInt := by
  have := d.isLt
  have := v.isLt
  simp only [skipSign, skipOverflow, addWord_not, BitVec.msb_eq_decide, BitVec.toInt_eq_toNat_cond, BitVec.toNat_sub]
  grind

end

/-- SKP completes either way: P + 2 or P + 1, for a condition of the model that means `holds` (R261, R262). -/
theorem exec_skp {c : SkipCond} {sr dr : RegCode} {s : State} {holds : Prop}
    (h : skipCondition c (s.cur.get dr) (s.cur.get sr) = true ↔ holds) :
    (holds → exec (.skp c sr dr) s = .next (s.setCur { s.cur with p := s.cur.p + 2 })) ∧
    (¬holds → exec (.skp c sr dr) s = .next (s.setCur { s.cur with p := s.cur.p + 1 })) := by
  have ends (r : RegSet) (hr : r.sts = s.cur.sts)
      (hp : (if skipCondition c (s.cur.get dr) (s.cur.get sr) then s.cur.skip else s.cur.advance) = r) :
      exec (.skp c sr dr) s = .next (s.setCur r) := by
    show execSkp c sr dr s = _
    rw [execSkp, hp]
    exact finish_ok_cur hr
  exact ⟨fun hh => ends s.cur.skip rfl (if_pos (h.2 hh)), fun hh => ends s.cur.advance rfl (if_neg (mt h.1 hh))⟩

theorem not_eq_true_iff {b : Bool} {p : Prop} (h : b = true ↔ p) : (!b) = true ↔ ¬p := by
  rw [Bool.not_eq_true', ← Bool.not_eq_true, h]

/-- Settles O30: each condition of the model in the integers; the conditions of SKP come in pairs of opposites. -/
theorem skipsAndPositiveJumps : Obligations.SkipsAndPositiveJumps := by
  unfold Obligations.SkipsAndPositiveJumps
  refine ⟨fun d s => ?jumps, fun c sr dr s => ?skips⟩
  case jumps =>
    exact ⟨finish_jumpIf (s.positive_iff _) rfl d,
      finish_jumpIf (r := { s.cur with x := s.cur.x + 1 }) (s.positive_iff _) rfl d⟩
  case skips =>
    cases c with
    | eql => exact exec_skp (skipZero_iff _ _)
    | ueq => exact exec_skp (not_eq_true_iff (skipZero_iff _ _))
    | lss => exact exec_skp (skipSign_iff _ _)
    | geq => exact exec_skp ((not_eq_true_iff (skipSign_iff _ _)).trans Int.not_lt)
    | lst => exact exec_skp (skipSign_xor_skipOverflow_iff _ _)
    | gre => exact exec_skp ((not_eq_true_iff (skipSign_xor_skipOverflow_iff _ _)).trans Int.not_lt)
    | mgre => exact exec_skp (skipCarry_iff _ _)
    | mlst => exact exec_skp ((not_eq_true_iff (skipCarry_iff _ _)).trans Nat.not_le)

/-! ## EXR -/

/-- Source codes 0 and 2 (R270). -/
theorem exec_exr_illegalSource {sr : RegCode} (h : sr = .zero ∨ sr = .p) (ign : BitVec 3) (s : State) :
    exec (.exr sr ign) s = takeTrap .illegalInstruction s :=
  if_pos h

section

variable {sr : RegCode} {s : State} (h0 : sr ≠ .zero) (hp : sr ≠ .p) (ign : BitVec 3)
include h0 hp

theorem exec_exr_unassigned (h : decodeWord (s.cur.get sr) = none) :
    exec (.exr sr ign) s = takeTrap .illegalInstruction s := by
  show execExr sr ign s = _
  rw [execExr, if_neg (not_or.2 ⟨h0, hp⟩), h, finish_trap]

theorem exec_exr_decoded {i : Instr} (h : decodeWord (s.cur.get sr) = some i) :
    exec (.exr sr ign) s = execPlain i s := by
  show execExr sr ign s = _
  rw [execExr, if_neg (not_or.2 ⟨h0, hp⟩), h]

end

/-- An EXR in the register: Z, and P + 1 (R270). -/
theorem nestedExr_eq (s : State) : nestedExr s =
    .next (s.raiseErrorFlag (s.setCur { s.cur with sts := s.cur.sts ||| 0o10, p := s.cur.p + 1 })) := rfl

/-- The word of SAA n (R124). -/
theorem decodeWord_saa (n : BitVec 8) : decodeWord (0o361#8 ++ n) = some (.saa n) :=
  decodeWord_encodeWord (i := .saa n) rfl

theorem exec_saa (n : BitVec 8) (s : State) :
    exec (.saa n) s = .next (s.setCur { s.cur with a := n.signExtend 16, p := s.cur.p + 1 }) :=
  finish_ok_cur rfl

/-- Settles O31: the word in the register decoded, and run by its own meaning. -/
theorem executeRegister : Obligations.ExecuteRegister := by
  unfold Obligations.ExecuteRegister
  refine fun sr ign s => ⟨fun h => exec_exr_illegalSource h ign s, fun h0 hp =>
    ⟨exec_exr_unassigned h0 hp ign, fun r g h => ?nested, fun i h hi => ?plain, fun n hn => ?saa⟩⟩
  case nested => exact (exec_exr_decoded h0 hp ign h).trans (nestedExr_eq s)
  case plain => exact (exec_exr_decoded h0 hp ign h).trans (exec_eq_execPlain hi s).symm
  case saa =>
    have decoded : decodeWord (s.cur.get sr) = some (.saa n) := by rw [hn, decodeWord_saa]
    exact (exec_exr_decoded h0 hp ign decoded).trans (exec_saa n s)

end Sys2Proof.Machine

namespace Sys2Proof.Machine

open Sys2Proof Sys2Proof.Config

/-! # Register operations: argument instructions, RADD and its forms, logic, multiplication, division -/

/-! ## Additions -/

/-- The end of an instruction whose registers are a function `g` of a 16-bit sum and its flags (R204): it completes,
since no addition sets Z. -/
theorem finish_sum (s : State) {a b w : Word} {cin : Bool} (hw : addWord a b cin = w) {g : Word → Byte → RegSet}
    (hg : ∀ v f, (g v f).sts = f) :
    ∃ f, finish s (.ok () (s.setCur (g (addWord a b cin) (addFlags a b cin s.cur.sts)))) = .next (s.setCur (g w f)) ∧
      AddFlags a b cin s.cur.sts f := by
  have flags := addFlags_addFlags a b cin s.cur.sts
  refine ⟨_, ?_, flags⟩
  rw [hw]
  exact finish_ok_z (by rw [hg, flags.rest 3 (by decide) (by decide) (by decide)])

theorem addWord_no_carry (a b : Word) : addWord a b false = a + b := by simp [addWord_eq]

/-- Settles O32: the SAx write no flag; the AAx are sums, each into its own register. -/
theorem argumentInstructions : Obligations.ArgumentInstructions := by
  unfold Obligations.ArgumentInstructions
  intro n s e
  exact ⟨finish_ok_cur rfl, exec_saa n s, finish_ok_cur rfl, finish_ok_cur rfl,
    finish_sum s (addWord_no_carry s.cur.b e) (g := fun w f => { s.cur with b := w, sts := f, p := s.cur.p + 1 })
      fun _ _ => rfl,
    finish_sum s (addWord_no_carry s.cur.a e) (g := fun w f => { s.cur with a := w, sts := f, p := s.cur.p + 1 })
      fun _ _ => rfl,
    finish_sum s (addWord_no_carry s.cur.t e) (g := fun w f => { s.cur with t := w, sts := f, p := s.cur.p + 1 })
      fun _ _ => rfl,
    finish_sum s (addWord_no_carry s.cur.x e) (g := fun w f => { s.cur with x := w, sts := f, p := s.cur.p + 1 })
      fun _ _ => rfl⟩

/-! ## Writing the destination -/

theorem RegSet.set_p (r : RegSet) (c : RegCode) (v : Word) : (r.set c v).p = if c = .p then v else r.p := by
  cases c <;> rfl

/-- The destination written and the next P, for every code at once (R38, R302, R303). -/
theorem RegSet.writeTo_eq (r : RegSet) (c : RegCode) (v : Word) :
    r.writeTo c v = { r.set c v with p := if c = .p then v else r.p + 1 } := by
  cases c <;> rfl

/-- The registers after an arithmetic register operation (R311). -/
theorem RegSet.addTo_eq (r : RegSet) (dr : RegCode) (d v : Word) (cin : Bool) :
    r.addTo dr d v cin = { r.set dr (addWord d v cin) with
      sts := addFlags d v cin r.sts, p := if dr = .p then addWord d v cin else r.p + 1 } := by
  cases dr <;> rfl

/-- An arithmetic register operation completes with the sum in its destination and the flags of R204. -/
theorem finish_addTo (s : State) (dr : RegCode) {d v w : Word} {cin : Bool} (hw : addWord d v cin = w) :
    ∃ f, finish s (.ok () (s.setCur (s.cur.addTo dr d v cin))) = .next (s.setCur { s.cur.set dr w with
        sts := f, p := if dr = .p then w else s.cur.p + 1 }) ∧
      AddFlags d v cin s.cur.sts f := by
  rw [RegSet.addTo_eq]
  exact finish_sum s hw (g := fun w f => { s.cur.set dr w with sts := f, p := if dr = .p then w else s.cur.p + 1 })
    fun _ _ => rfl

/-! ## RADD -/

/-- RADD without ADC and AD1 both completes with one addition of its operands (R311, R318). -/
theorem finish_radd {adc ad1 cm1 cld cin : Bool} {sr dr : RegCode} {s : State} {d v w : Word}
    (h : ¬(adc = true ∧ ad1 = true)) (hd : s.cur.dest cld dr = d) (hv : s.cur.source cm1 sr = v)
    (hc : (ad1 || (adc && s.cur.c)) = cin) (hw : addWord d v cin = w) :
    ∃ f, finish s (.ok () (s.setCur (s.cur.radd adc ad1 cm1 cld sr dr))) = .next (s.setCur { s.cur.set dr w with
        sts := f, p := if dr = .p then w else s.cur.p + 1 }) ∧
      AddFlags d v cin s.cur.sts f := by
  rw [RegSet.radd, if_neg (by rwa [Bool.and_eq_true]), hd, hv, hc]
  exact finish_addTo s dr hw

/-- An addition to 0 has neither carry nor overflow. -/
theorem AddFlags.zero_add {v : Word} {old new : Byte} (h : AddFlags 0 v false old new) :
    new.getLsbD 6 = false ∧ new.getLsbD 4 = false := by
  have := v.isLt
  have := v.le_toInt
  have := v.toInt_lt
  rw [h.c, h.q, decide_eq_false_iff_not, decide_eq_false_iff_not]
  simp only [BitVec.ofNat_eq_ofNat, BitVec.toNat_zero, BitVec.toInt_zero, Bool.toNat_false]
  omega

theorem addWord_zero_left (v : Word) : addWord 0 v false = v := by simp [addWord_eq]

theorem addWord_zero_carry (d : Word) : addWord d 0 true = d + 1 := by simp [addWord_eq]

theorem addWord_ones (d : Word) : addWord d 0o177777 false = d - 1 :=
  (addWord_no_carry ..).trans (BitVec.sub_eq_add_neg d 1).symm

/-- COPY; RCLR and EXIT are COPY with source code 0 and COPY SL DP (R316, R319, R321). -/
theorem exec_copy (sr dr : RegCode) (s : State) :
    ∃ f, exec (.copy sr dr) s = .next (s.setCur { s.cur.set dr (s.cur.get sr) with
        sts := f, p := if dr = .p then s.cur.get sr else s.cur.p + 1 }) ∧
      AddFlags 0 (s.cur.get sr) false s.cur.sts f :=
  finish_radd (by decide) rfl rfl rfl (addWord_zero_left _)

/-- Settles O33: one addition for RADD, and the same addition with the operands of each named form. -/
theorem registerAdd : Obligations.RegisterAdd := by
  unfold Obligations.RegisterAdd
  refine ⟨fun adc ad1 cm1 cld sr dr s => ⟨?noOperation, fun h => finish_radd h rfl rfl rfl (addWord_eq ..)⟩,
    fun sr dr s => ⟨?copy, ?named⟩⟩
  case noOperation =>
    rintro rfl rfl
    exact finish_ok_cur rfl
  case copy =>
    obtain ⟨f, done, flags⟩ := exec_copy sr dr s
    exact ⟨f, done, flags, flags.zero_add⟩
  case named =>
    exact ⟨exec_copy .zero dr s, finish_radd (by decide) rfl rfl rfl (addWord_zero_carry _),
      finish_radd (by decide) rfl (by decide : ~~~(0 : Word) = 0o177777) rfl (addWord_ones _),
      finish_radd (by decide) rfl rfl rfl (addWord_not _ _), exec_copy .l .p s⟩

/-! ## Logic and SWAP -/

theorem finish_writeTo (s : State) (dr : RegCode) (w : Word) :
    finish s (.ok () (s.setCur (s.cur.writeTo dr w))) =
      .next (s.setCur { s.cur.set dr w with p := if dr = .p then w else s.cur.p + 1 }) := by
  rw [RegSet.writeTo_eq]
  exact finish_ok_cur (RegSet.set_sts ..)

theorem RegSet.eq_of_p {r : RegSet} {w : Word} (h : r.p = w) : r = { r with p := w } := by rw [← h]

/-- The registers after SWAP; the write to dr comes last, so a P in both codes takes the source operand (R320). -/
theorem RegSet.swapped_eq (r : RegSet) (sr dr : RegCode) (d v : Word) :
    (if sr = .p ∧ dr ≠ .p then (r.set sr d).set dr v else (r.set sr d).writeTo dr v) =
      { (r.set sr d).set dr v with p := if dr = .p then v else if sr = .p then d else r.p + 1 } := by
  by_cases hd : dr = .p
  · rw [if_neg (fun h => h.2 hd), RegSet.writeTo_eq, if_pos hd, if_pos hd]
  · by_cases hs : sr = .p
    · have jumped : ((r.set sr d).set dr v).p = d := by rw [RegSet.set_p, if_neg hd, RegSet.set_p, if_pos hs]
      rw [if_pos ⟨hs, hd⟩, if_neg hd, if_pos hs]
      exact RegSet.eq_of_p jumped
    · rw [if_neg (fun h => hs h.1), RegSet.writeTo_eq, if_neg hd, if_neg hd, if_neg hs, RegSet.set_p, if_neg hs]

/-- Settles O34: the result written to the destination alone, and SWAP's two writes in order. -/
theorem registerLogic : Obligations.RegisterLogic := by
  unfold Obligations.RegisterLogic
  refine fun cm1 cld sr dr s => ⟨finish_writeTo s dr _, finish_writeTo s dr _, finish_writeTo s dr _, ?swap⟩
  show execSwap cm1 cld sr dr s = _
  rw [execSwap, RegSet.swapped_eq]
  exact finish_ok_cur (by simp only [RegSet.set_sts])

/-! ## Multiplication -/

/-- A 32-bit signed number holds the product of two words. -/
theorem toInt_ofInt_mulExact (a b : Word) : (BitVec.ofInt 32 (mulExact a b)).toInt = mulExact a b := by
  have low : -2 ^ 30 ≤ mulExact a b := BitVec.le_toInt_mul_toInt
  have high : mulExact a b ≤ 2 ^ 30 := BitVec.toInt_mul_toInt_le
  exact BitVec.toInt_ofInt_eq_self (by decide) (by omega) (by omega)

/-- C, O and Q are all the flags that RMPY and RDIV leave open (R330, R331). -/
theorem getLsbD_openArithFlags_ne {n : Nat} (h4 : n ≠ 4) (h5 : n ≠ 5) (h6 : n ≠ 6) (v : Word) (f : Byte) :
    (openArithFlags v f).getLsbD n = f.getLsbD n := by
  rw [getLsbD_openArithFlags, if_neg h4, if_neg h5, if_neg h6]

/-- The multiplication of MIX3 in the integers (R332). -/
theorem ofInt_sub_one_mul_three (a : Word) : BitVec.ofInt 16 (((a.toNat : Int) - 1) * 3) = (a - 1) * 3 := by
  rw [BitVec.ofInt_mul, Int.sub_eq_add_neg, BitVec.ofInt_add, BitVec.ofInt_natCast, BitVec.ofNat_toNat,
    BitVec.setWidth_eq, BitVec.sub_eq_add_neg]
  rfl

/-- Settles O35: the product fits 32 bits, A and D hold it, and the open flags are no others. -/
theorem registerMultiply : Obligations.RegisterMultiply := by
  unfold Obligations.RegisterMultiply
  refine ⟨fun sr dr s => ?rmpy, fun s => ?mix3⟩
  case rmpy =>
    exact ⟨_, _, _, finish_ok_z (getLsbD_openArithFlags_ne (by decide) (by decide) (by decide) ..),
      (congrArg BitVec.toInt (s.cur.setAd_ad _)).trans (toInt_ofInt_mulExact ..),
      fun n h4 h5 h6 => getLsbD_openArithFlags_ne h4 h5 h6 ..⟩
  case mix3 =>
    rw [ofInt_sub_one_mul_three]
    exact finish_ok_cur rfl

/-! ## Division -/

/-- `n` divided by `v` with the quotient `q` rounded toward zero: the remainder `r` is less than the divisor and has the
dividend's sign (R331). -/
def RoundedToZero (n v q r : Int) : Prop := n = q * v + r ∧ |r| < |v| ∧ 0 ≤ r * n

/-- There is one such quotient and remainder, Lean's `tdiv` and `tmod`. -/
theorem roundedToZero_iff {n v : Int} (hv : v ≠ 0) (q r : Int) :
    RoundedToZero n v q r ↔ n.tdiv v = q ∧ n.tmod v = r := by
  constructor
  · rintro ⟨sum, small, sign⟩
    have sum : r + v * q = n := by rw [sum, Int.mul_comm, Int.add_comm]
    rw [abs_lt, Int.abs_eq_natAbs] at small
    rcases mul_nonneg_iff.1 sign with ⟨hr, hn⟩ | ⟨hr, hn⟩
    · exact (Int.tdiv_tmod_unique hn hv).2 ⟨sum, hr, small.2⟩
    · exact (Int.tdiv_tmod_unique' hn hv).2 ⟨sum, small.1, hr⟩
  · rintro ⟨rfl, rfl⟩
    have sum := (Int.tdiv_mul_add_tmod n v).symm
    rcases le_total 0 n with hn | hn
    · obtain ⟨-, hr, small⟩ := (Int.tdiv_tmod_unique hn hv).1 ⟨rfl, rfl⟩
      exact ⟨sum, by rwa [abs_of_nonneg hr, Int.abs_eq_natAbs], mul_nonneg hr hn⟩
    · obtain ⟨-, small, hr⟩ := (Int.tdiv_tmod_unique' hn hv).1 ⟨rfl, rfl⟩
      exact ⟨sum, by rwa [abs_of_nonpos hr, Int.abs_eq_natAbs, neg_lt], mul_nonneg_of_nonpos_of_nonpos hr hn⟩

/-- RDIV overflows exactly for a divisor 0 and for a quotient of more than 16 bits. -/
theorem divOverflow_iff (n : Int) (v : Word) :
    divOverflow n v = true ↔ v.toInt = 0 ∨ n.tdiv v.toInt < -32768 ∨ 32767 < n.tdiv v.toInt := by
  have zero : v = 0 ↔ v.toInt = 0 := by rw [← BitVec.toInt_inj]; rfl
  simp only [divOverflow, Bool.or_eq_true, decide_eq_true_iff, zero, or_assoc]

/-- With a quotient of 16 bits, A and D take it and the remainder, which is less than the divisor. -/
theorem RegSet.divided_toInt {r : RegSet} {v : Word} {q m : Int} (h : RoundedToZero r.ad.toInt v.toInt q m)
    (low : -32768 ≤ q) (high : q ≤ 32767) (x y w : Word) :
    divOverflow r.ad.toInt v = false ∧ (r.divided v x y w).a.toInt = q ∧ (r.divided v x y w).d.toInt = m := by
  have small : |m| < |v.toInt| := h.2.1
  have nonzero : v.toInt ≠ 0 := abs_pos.1 ((abs_nonneg m).trans_lt small)
  have remainder : -32768 ≤ m ∧ m < 32768 := by
    have bound : |v.toInt| ≤ 32768 := abs_le.2 ⟨v.le_toInt, v.toInt_lt.le⟩
    have := abs_lt.1 (small.trans_le bound)
    omega
  obtain ⟨rfl, rfl⟩ := (roundedToZero_iff nonzero q m).1 h
  have fits : divOverflow r.ad.toInt v = false := by
    rw [← Bool.not_eq_true, divOverflow_iff]
    omega
  rw [RegSet.divided, if_neg (by rw [fits]; decide)]
  exact ⟨fits, BitVec.toInt_ofInt_eq_self (by decide) low (by omega),
    BitVec.toInt_ofInt_eq_self (by decide) remainder.1 remainder.2⟩

/-- The flags after RDIV: C, O, Q open, and Z set by the overflow. -/
theorem RegSet.getLsbD_divided_sts (r : RegSet) (v x y w : Word) (n : Nat) :
    (r.divided v x y w).sts.getLsbD n =
      if n = 3 then (r.z || divOverflow r.ad.toInt v) else (openArithFlags w r.sts).getLsbD n := by
  have z : (openArithFlags w r.sts).getLsbD 3 = r.z := getLsbD_openArithFlags_ne (by decide) (by decide) (by decide) ..
  unfold RegSet.divided
  by_cases hn : n = 3
  · subst hn
    rw [if_pos rfl]
    split
    · next h => rw [h, Bool.or_true, getLsbD_setBit, if_pos (by decide)]
    · next h => rw [Bool.eq_false_of_not_eq_true h, Bool.or_false, z]
  · rw [if_neg hn]
    split
    · rw [getLsbD_setBit, if_neg (fun h => hn h.1)]
    · rfl

/-- RDIV writes A, D and the flags alone. -/
theorem RegSet.divided_eq (r : RegSet) (v x y w : Word) :
    r.divided v x y w = { r with
      a := (r.divided v x y w).a, d := (r.divided v x y w).d, sts := (r.divided v x y w).sts } := by
  unfold RegSet.divided
  split <;> rfl

/-- The registers after RDIV in state `s`, with the open values that it draws, before P goes on (R331). -/
def State.divided (s : State) (sr : RegCode) : RegSet :=
  s.cur.divided (s.cur.get sr) (s.anyWord 0) (s.anyWord 1) (s.anyWord 2)

theorem exec_rdiv (sr : RegCode) (ign : BitVec 3) (s : State) :
    exec (.rdiv sr ign) s = .next (s.raiseErrorFlag ((s.drawn 3).setCur { s.cur with
      a := (s.divided sr).a, d := (s.divided sr).d, sts := (s.divided sr).sts, p := s.cur.p + 1 })) := by
  show execRdiv sr ign s = _
  rw [execRdiv, finish_ok, RegSet.divided_eq]
  rfl

/-- Settles O36: quotient and remainder are `tdiv` and `tmod`, and Z tells whether the quotient fits. -/
theorem registerDivide : Obligations.RegisterDivide := by
  unfold Obligations.RegisterDivide
  intro sr ign s n v
  have flag : ∀ k, (s.divided sr).sts.getLsbD k = if k = 3 then (s.cur.z || divOverflow n (s.cur.get sr))
      else (openArithFlags (s.anyWord 2) s.cur.sts).getLsbD k := s.cur.getLsbD_divided_sts _ _ _ _
  refine ⟨_, _, _, exec_rdiv sr ign s, fun k h3 h4 h5 h6 => ?otherFlags, fun q r sum small sign low high => ?fits,
    fun h => ?overflow⟩
  case otherFlags => rw [flag, if_neg h3, getLsbD_openArithFlags_ne h4 h5 h6]
  case fits =>
    obtain ⟨fits, quotient, remainder⟩ : divOverflow n (s.cur.get sr) = false ∧ (s.divided sr).a.toInt = q ∧
        (s.divided sr).d.toInt = r := RegSet.divided_toInt ⟨sum, small, sign⟩ low high _ _ _
    exact ⟨quotient, remainder, by rw [flag, if_pos rfl, fits, Bool.or_false]⟩
  case overflow =>
    have overflows : divOverflow n (s.cur.get sr) = true := by
      rw [divOverflow_iff]
      by_cases hv : v = 0
      · exact .inl hv
      · obtain ⟨sum, small, sign⟩ := (roundedToZero_iff hv (n.tdiv v) (n.tmod v)).2 ⟨rfl, rfl⟩
        exact .inr (h.resolve_left hv _ _ sum small sign)
    rw [flag, if_pos rfl, overflows, Bool.or_true]

end Sys2Proof.Machine

namespace Sys2Proof.Machine

open Sys2Proof

/-! # Bits and shifts -/

/-! ## Bit instructions -/

/-- STS as a word has no bits but its own 8. -/
theorem RegSet.bitOf_eq (r : RegSet) (bn : BitVec 4) (dr : RegCode) :
    r.bitOf bn dr = (if dr = .zero then r.sts.setWidth 16 else r.get dr).getLsbD bn.toNat := by
  unfold RegSet.bitOf
  split
  · rw [BitVec.getLsbD_setWidth, decide_eq_true (by omega), Bool.true_and]
  · rfl

theorem RegSet.setBitOf_p {dr : RegCode} (h : dr ≠ .p) (r : RegSet) (bn : BitVec 4) (v : Bool) :
    (r.setBitOf bn dr v).p = r.p := by
  unfold RegSet.setBitOf
  split
  · rfl
  · rw [RegSet.set_p, if_neg h]

section

variable {bn : BitVec 4} {dr : RegCode} {s : State} (h : ¬(dr = .zero ∧ 8 ≤ bn.toNat))
include h

theorem stsUpper_eq_false : stsUpper bn dr = false := by simpa [stsUpper] using h

/-- A bit instruction that writes the addressed bit as `v`, and then K where `k` gives it a value. -/
theorem finish_bitOp_write {f : Bool → Bool → Option Bool × Option Bool} {v : Bool} {k : Option Bool} {r : RegSet}
    (hf : f (s.cur.bitOf bn dr) s.cur.k = (some v, k))
    (hr : k.elim (s.cur.setBitOf bn dr v) (s.cur.setBitOf bn dr v).setK = r) :
    finish s (bitOp f bn dr s) =
      .next (s.raiseErrorFlag (s.setCur (if dr = .p then r else { r with p := s.cur.p + 1 }))) := by
  have done : bitOp f bn dr s = .ok () (s.setCur (if dr = .p then r else r.advance)) := by
    rw [← hr]
    simp only [bitOp, stsUpper_eq_false h, hf, Option.isSome_some, Bool.true_and, Bool.false_eq_true, if_false,
      decide_eq_true_iff]
    cases k <;> rfl
  have next (hp : dr ≠ .p) : r.p = s.cur.p := by
    rw [← RegSet.setBitOf_p hp s.cur bn v, ← hr]
    cases k <;> rfl
  rw [done, finish_ok]
  by_cases hp : dr = .p
  · rw [if_pos hp, if_pos hp]
  · rw [if_neg hp, if_neg hp, RegSet.advance, next hp]

/-- A bit instruction that writes K alone. -/
theorem finish_bitOp_load {f : Bool → Bool → Option Bool × Option Bool} {v : Bool}
    (hf : f (s.cur.bitOf bn dr) s.cur.k = (none, some v)) :
    finish s (bitOp f bn dr s) = .next (s.setCur
      { s.cur with sts := if v = true then s.cur.sts ||| 4 else s.cur.sts &&& ~~~4, p := s.cur.p + 1 }) := by
  have done : bitOp f bn dr s = .ok () (s.setCur (s.cur.setK v).advance) := by
    simp [bitOp, stsUpper_eq_false h, hf]
  rw [done]
  refine finish_ok_z (r := (s.cur.setK v).advance) ?_
  rw [RegSet.advance_sts, RegSet.setK_sts, getLsbD_setBit, if_neg (by omega)]

/-- A bit skip writes P alone. -/
theorem finish_bitSkip {f : Bool → Bool → Bool} {c : Bool} (hf : f (s.cur.bitOf bn dr) s.cur.k = c) :
    finish s (bitSkip f bn dr s) =
      .next (s.setCur { s.cur with p := if c = true then s.cur.p + 2 else s.cur.p + 1 }) := by
  have done : bitSkip f bn dr s = .ok () (s.setCur (if c = true then s.cur.skip else s.cur.advance)) := by
    simp [bitSkip, stsUpper_eq_false h, hf]
  rw [done]
  cases c <;> exact finish_ok_cur rfl

end

/-- Settles O37: an instruction writes the bit, the bit and then K, K alone, or skips; which value it is comes from the
bit and K. -/
theorem bitInstructions : Obligations.BitInstructions := by
  unfold Obligations.BitInstructions
  intro bn dr s hbn w bit k put go load skip
  have bit_eq : s.cur.bitOf bn dr = bit := s.cur.bitOf_eq bn dr
  have put_eq (v : Bool) : s.cur.setBitOf bn dr v = put v := by
    by_cases hz : dr = .zero
    · simp only [RegSet.setBitOf, put, if_pos hz, setBit]
    · simp only [RegSet.setBitOf, put, w, if_neg hz, setBit]
  have write {f v} (hf : f bit k = (some v, none)) : finish s (bitOp f bn dr s) = .next (go (put v)) :=
    finish_bitOp_write (k := none) hbn (bit_eq ▸ hf) (put_eq v)
  have writeK {f v c} (hf : f bit k = (some v, some c)) : finish s (bitOp f bn dr s) = .next (go ((put v).setK c)) :=
    finish_bitOp_write (k := some c) hbn (bit_eq ▸ hf) (congrArg (RegSet.setK · c) (put_eq v))
  have loads {f v} (hf : f bit k = (none, some v)) : finish s (bitOp f bn dr s) = .next (load v) :=
    finish_bitOp_load hbn (bit_eq ▸ hf)
  have skips {f c} (hf : f bit k = c) : finish s (bitSkip f bn dr s) = .next (skip c) :=
    finish_bitSkip hbn (bit_eq ▸ hf)
  -- The instructions differ in `f` alone; what they write is opaque to them from here.
  clear_value put go load skip bit k
  exact ⟨⟨write rfl, write rfl, write rfl, write rfl, writeK (v := !k) (c := true) rfl,
      writeK (v := k) (c := false) rfl⟩,
    ⟨loads rfl, loads rfl, loads rfl, loads rfl, loads rfl, loads rfl⟩,
    skips rfl, skips rfl, skips rfl, skips rfl⟩

/-! ## Rotations one place at a time -/

section

variable {w : Nat} (x : BitVec w)

theorem rotateLeft_zero : x.rotateLeft 0 = x := by simp [BitVec.rotateLeft_def, BitVec.ushiftRight_eq_zero]

theorem rotateRight_zero : x.rotateRight 0 = x := by simp [BitVec.rotateRight_def]

/-- A rotation to the right reads each bit from `n` places further, around the end. -/
theorem getLsbD_rotateRight_mod {i : Nat} (hi : i < w) (n : Nat) :
    (x.rotateRight n).getLsbD i = x.getLsbD ((i + n) % w) := by
  have hn : n % w < w := Nat.mod_lt n (by omega)
  rw [BitVec.getLsbD_rotateRight, ← Nat.add_mod_mod i]
  by_cases h : i < w - n % w
  · rw [Nat.mod_eq_of_lt (by omega : i + n % w < w), decide_eq_true h, cond_true, Nat.add_comm]
  · have wraps : (i + n % w) % w = i - (w - n % w) := by
      rw [Nat.mod_eq_sub_mod (by omega), Nat.mod_eq_of_lt (by omega)]
      omega
    rw [wraps, decide_eq_false h, cond_false, decide_eq_true hi, Bool.true_and]

theorem rotateLeft_one_rotateLeft (n : Nat) : (x.rotateLeft n).rotateLeft 1 = x.rotateLeft (n + 1) := by
  refine BitVec.eq_of_getMsbD_eq fun i hi => ?_
  have inside : (1 + i) % w < w := Nat.mod_lt _ (by omega)
  simp only [BitVec.getMsbD_rotateLeft, hi, inside, decide_true, Bool.true_and, Nat.add_mod_mod, Nat.add_assoc]

theorem rotateRight_one_rotateRight (n : Nat) :
    (x.rotateRight n).rotateRight 1 = x.rotateRight (n + 1) := by
  refine BitVec.eq_of_getLsbD_eq fun i hi => ?_
  have inside : (i + 1) % w < w := Nat.mod_lt _ (by omega)
  rw [getLsbD_rotateRight_mod _ hi, getLsbD_rotateRight_mod _ inside, getLsbD_rotateRight_mod _ hi, Nat.mod_add_mod,
    Nat.add_assoc, Nat.add_comm 1]

theorem getLsbD_rotateLeft_one {i : Nat} (hi : i < w) :
    (x.rotateLeft 1).getLsbD i = if i = 0 then x.msb else x.getLsbD (i - 1) := by
  rw [BitVec.msb_eq_getLsbD_last, BitVec.getLsbD_rotateLeft]
  by_cases hw : w = 1
  · subst hw
    simp [show i = 0 by omega]
  · rw [Nat.mod_eq_of_lt (by omega : 1 < w)]
    grind

theorem getLsbD_rotateRight_one {i : Nat} (hi : i < w) :
    (x.rotateRight 1).getLsbD i = if i = w - 1 then x.getLsbD 0 else x.getLsbD (i + 1) := by
  rw [getLsbD_rotateRight_mod _ hi]
  split
  · next h => rw [h, Nat.sub_add_cancel (by omega), Nat.mod_self]
  · next h => rw [Nat.mod_eq_of_lt (by omega)]

end

/-! ## Shifts one step at a time -/

section

variable {w : Nat} (ty : ShiftType) (right : Bool) (r : BitVec w) (m : Bool)

/-- The last step of a shift is the one after all the others. -/
theorem shiftTimes_succ (n : Nat) : shiftTimes ty right (n + 1) r m =
    shiftStep ty right (shiftTimes ty right n r m).1 (shiftTimes ty right n r m).2 := by
  induction n generalizing r m with
  | zero => rfl
  | succ n ih => exact ih _ _

/-- M is the last bit shifted out, whatever is shifted in. -/
theorem shiftTimes_m {n : Nat} (hn : 0 < n) :
    (shiftTimes ty right n r m).2 =
      if right = true then (shiftTimes ty right (n - 1) r m).1.getLsbD 0
      else (shiftTimes ty right (n - 1) r m).1.msb := by
  obtain ⟨k, rfl⟩ := Nat.exists_eq_add_of_lt hn
  rw [Nat.zero_add, shiftTimes_succ, shiftStep]
  cases right <;> rfl

/-- What one step moves by one place, `n` steps move by `n` places. -/
theorem shiftTimes_moves {v : Nat} {ty : ShiftType} {right : Bool} (part : BitVec w × Bool → BitVec v)
    {move : BitVec v → Nat → BitVec v} (move_zero : ∀ x, move x 0 = x)
    (move_move : ∀ x n, move (move x n) 1 = move x (n + 1))
    (step : ∀ r m, part (shiftStep ty right r m) = move (part (r, m)) 1) (n : Nat) :
    part (shiftTimes ty right n r m) = move (part (r, m)) n := by
  induction n with
  | zero => exact (move_zero _).symm
  | succ n ih => rw [shiftTimes_succ, step, Prod.mk.eta, ih, move_move]

/-! ### What one step does to the register -/

theorem getLsbD_shiftStep_left {i : Nat} (hi : i < w) : (shiftStep ty false r m).1.getLsbD i =
    if i = 0 then shiftIn ty false r.msb m else r.getLsbD (i - 1) := by
  show (setBit (r <<< 1) 0 (shiftIn ty false r.msb m)).getLsbD i = _
  rw [getLsbD_setBit, BitVec.getLsbD_shiftLeft]
  grind

theorem getLsbD_shiftStep_right {i : Nat} (hi : i < w) : (shiftStep ty true r m).1.getLsbD i =
    if i = w - 1 then shiftIn ty r.msb (r.getLsbD 0) m else r.getLsbD (i + 1) := by
  show (setBit (r >>> 1) (w - 1) (shiftIn ty r.msb (r.getLsbD 0) m)).getLsbD i = _
  rw [getLsbD_setBit, BitVec.getLsbD_ushiftRight]
  grind

theorem shiftStep_left_arith : (shiftStep .arith false r m).1 = r <<< 1 := by
  refine BitVec.eq_of_getLsbD_eq fun i hi => ?_
  rw [getLsbD_shiftStep_left _ _ _ hi, BitVec.getLsbD_shiftLeft]
  grind [shiftIn]

theorem shiftStep_left_rot : (shiftStep .rot false r m).1 = r.rotateLeft 1 := by
  refine BitVec.eq_of_getLsbD_eq fun i hi => ?_
  rw [getLsbD_shiftStep_left _ _ _ hi, getLsbD_rotateLeft_one _ hi, shiftIn]

theorem shiftStep_right_arith : (shiftStep .arith true r m).1 = r.sshiftRight 1 := by
  refine BitVec.eq_of_getLsbD_eq fun i hi => ?_
  rw [getLsbD_shiftStep_right _ _ _ hi, BitVec.getLsbD_sshiftRight]
  grind [shiftIn]

theorem shiftStep_right_zin : (shiftStep .zin true r m).1 = r >>> 1 := by
  refine BitVec.eq_of_getLsbD_eq fun i hi => ?_
  rw [getLsbD_shiftStep_right _ _ _ hi, BitVec.getLsbD_ushiftRight]
  grind [shiftIn]

theorem shiftStep_right_rot : (shiftStep .rot true r m).1 = r.rotateRight 1 := by
  refine BitVec.eq_of_getLsbD_eq fun i hi => ?_
  rw [getLsbD_shiftStep_right _ _ _ hi, getLsbD_rotateRight_one _ hi, shiftIn]

/-- M and the register connected, M in front. -/
def linked (q : BitVec w × Bool) : BitVec (1 + w) := BitVec.ofBool q.2 ++ q.1

theorem getLsbD_linked (q : BitVec w × Bool) {i : Nat} (hi : i < 1 + w) :
    (linked q).getLsbD i = if i = w then q.2 else q.1.getLsbD i := by
  rw [linked, BitVec.getLsbD_append]
  grind

theorem msb_linked (q : BitVec w × Bool) : (linked q).msb = q.2 := by
  rw [BitVec.msb_eq_getLsbD_last, getLsbD_linked q (by omega), if_pos (by omega)]

/-- The link shift is a rotation of M and the register together (R372). -/
theorem shiftStep_left_lin (hw : 0 < w) : linked (shiftStep .lin false r m) = (linked (r, m)).rotateLeft 1 := by
  refine BitVec.eq_of_getLsbD_eq fun i hi => ?_
  have out : (shiftStep .lin false r m).2 = r.getLsbD (w - 1) := r.msb_eq_getLsbD_last
  rw [getLsbD_linked _ hi, getLsbD_rotateLeft_one _ hi, msb_linked, getLsbD_linked _ (by omega), out]
  by_cases h : i = w
  · rw [if_pos h, if_neg (by omega), if_neg (by omega), h]
  · rw [if_neg h, if_neg (by omega : i - 1 ≠ w), getLsbD_shiftStep_left _ _ _ (by omega), shiftIn]

theorem shiftStep_right_lin (hw : 0 < w) : linked (shiftStep .lin true r m) = (linked (r, m)).rotateRight 1 := by
  refine BitVec.eq_of_getLsbD_eq fun i hi => ?_
  have out : (shiftStep .lin true r m).2 = r.getLsbD 0 := rfl
  rw [getLsbD_linked _ hi, getLsbD_rotateRight_one _ hi, getLsbD_linked _ (by omega), out]
  by_cases h : i = w
  · rw [if_pos h, if_pos (by omega), if_neg (by omega)]
  · rw [if_neg h, if_neg (by omega : i ≠ 1 + w - 1), getLsbD_linked _ (by omega),
      getLsbD_shiftStep_right _ _ _ (by omega), shiftIn]
    simp only [show i = w - 1 ↔ i + 1 = w by omega]

end

/-! ## Shifts in closed form -/

section

variable {w : Nat} (r : BitVec w) (m : Bool) (n : Nat)

theorem shiftTimes_left_arith : (shiftTimes .arith false n r m).1 = r <<< n :=
  shiftTimes_moves r m Prod.fst BitVec.shiftLeft_zero (fun x k => (x.shiftLeft_add k 1).symm) shiftStep_left_arith n

/-- To the left no sign comes in (R372). -/
theorem shiftTimes_left_zin : shiftTimes .zin false n r m = shiftTimes .arith false n r m := by
  induction n with
  | zero => rfl
  | succ n ih =>
    rw [shiftTimes_succ, shiftTimes_succ, ih]
    rfl

theorem shiftTimes_left_rot : (shiftTimes .rot false n r m).1 = r.rotateLeft n :=
  shiftTimes_moves r m Prod.fst rotateLeft_zero rotateLeft_one_rotateLeft shiftStep_left_rot n

theorem shiftTimes_left_lin (hw : 0 < w) : linked (shiftTimes .lin false n r m) = (linked (r, m)).rotateLeft n :=
  shiftTimes_moves r m linked rotateLeft_zero rotateLeft_one_rotateLeft (fun r m => shiftStep_left_lin r m hw) n

theorem shiftTimes_right_arith : (shiftTimes .arith true n r m).1 = r.sshiftRight n :=
  shiftTimes_moves r m Prod.fst (move := BitVec.sshiftRight) (fun x => x.sshiftRight_zero)
    (fun _ _ => BitVec.sshiftRight_add.symm) shiftStep_right_arith n

theorem shiftTimes_right_zin : (shiftTimes .zin true n r m).1 = r >>> n :=
  shiftTimes_moves r m Prod.fst BitVec.ushiftRight_zero (fun x k => (x.shiftRight_add k 1).symm) shiftStep_right_zin n

theorem shiftTimes_right_rot : (shiftTimes .rot true n r m).1 = r.rotateRight n :=
  shiftTimes_moves r m Prod.fst rotateRight_zero rotateRight_one_rotateRight shiftStep_right_rot n

theorem shiftTimes_right_lin (hw : 0 < w) : linked (shiftTimes .lin true n r m) = (linked (r, m)).rotateRight n :=
  shiftTimes_moves r m linked rotateRight_zero rotateRight_one_rotateRight (fun r m => shiftStep_right_lin r m hw) n

/-! ### M, the last bit shifted out -/

section

variable {n}
variable (hn : 0 < n)
include hn

theorem shiftTimes_left_arith_m : (shiftTimes .arith false n r m).2 = (decide (n ≤ w) && r.getLsbD (w - n)) := by
  rw [shiftTimes_m _ _ _ _ hn, if_neg Bool.false_ne_true, shiftTimes_left_arith, BitVec.msb_shiftLeft, BitVec.getMsbD]
  grind

theorem shiftTimes_left_rot_m (hw : 0 < w) : (shiftTimes .rot false n r m).2 = (r.rotateLeft n).getLsbD 0 := by
  rw [shiftTimes_m _ _ _ _ hn, if_neg Bool.false_ne_true, shiftTimes_left_rot]
  calc (r.rotateLeft (n - 1)).msb
    _ = ((r.rotateLeft (n - 1)).rotateLeft 1).getLsbD 0 := (getLsbD_rotateLeft_one _ hw).symm
    _ = (r.rotateLeft n).getLsbD 0 := by rw [rotateLeft_one_rotateLeft, Nat.sub_add_cancel hn]

theorem shiftTimes_right_arith_m :
    (shiftTimes .arith true n r m).2 = if n ≤ w then r.getLsbD (n - 1) else r.msb := by
  rw [shiftTimes_m _ _ _ _ hn, if_pos rfl, shiftTimes_right_arith, BitVec.getLsbD_sshiftRight]
  grind

theorem shiftTimes_right_zin_m : (shiftTimes .zin true n r m).2 = r.getLsbD (n - 1) := by
  rw [shiftTimes_m _ _ _ _ hn, if_pos rfl, shiftTimes_right_zin, BitVec.getLsbD_ushiftRight, Nat.add_zero]

theorem shiftTimes_right_rot_m (hw : 0 < w) : (shiftTimes .rot true n r m).2 = (r.rotateRight n).msb := by
  rw [shiftTimes_m _ _ _ _ hn, if_pos rfl, shiftTimes_right_rot]
  calc (r.rotateRight (n - 1)).getLsbD 0
    _ = ((r.rotateRight (n - 1)).rotateRight 1).msb := by
        rw [BitVec.msb_eq_getLsbD_last, getLsbD_rotateRight_one _ (by omega), if_pos rfl]
    _ = (r.rotateRight n).msb := by rw [rotateRight_one_rotateRight, Nat.sub_add_cancel hn]

end

end

/-! ## Shift instructions -/

theorem shiftWordBy_left {w : Nat} {cnt : BitVec 6} (h : cnt.toNat < 32) (ty : ShiftType) (r : BitVec w) (m : Bool) :
    shiftWordBy ty cnt r m = shiftTimes ty false cnt.toNat r m := by
  have left : shiftRight cnt = false := by
    rw [shiftRight, BitVec.msb_eq_decide, decide_eq_false_iff_not]
    omega
  simp only [shiftWordBy, shiftSteps, left, Bool.false_eq_true, if_false]

theorem shiftWordBy_right {w : Nat} {cnt : BitVec 6} (h : 32 ≤ cnt.toNat) (ty : ShiftType) (r : BitVec w) (m : Bool) :
    shiftWordBy ty cnt r m = shiftTimes ty true (64 - cnt.toNat) r m := by
  have right : shiftRight cnt = true := by
    rw [shiftRight, BitVec.msb_eq_decide, decide_eq_true_iff]
    omega
  simp only [shiftWordBy, shiftSteps, right, if_true]

/-- A shift instruction ends with M written and P + 1, and Z as it was (R374 to R377). -/
theorem finish_setM {s : State} {r : RegSet} (hr : r.sts = s.cur.sts) (b : Bool) :
    finish s (.ok () (s.setCur (r.setM b).advance)) = .next (s.setCur
      { r with sts := if b = true then s.cur.sts ||| 128 else s.cur.sts &&& 127, p := r.p + 1 }) := by
  rw [← hr]
  refine finish_ok_z (r := (r.setM b).advance) ?_
  show (setBit r.sts 7 b).getLsbD 3 = _
  rw [getLsbD_setBit, if_neg (by omega), hr]

/-- Settles O38: each step is a shift or rotation by one place, `n` steps are one by `n`, and M is the last bit out. -/
theorem shiftsComplete : Obligations.ShiftsComplete := by
  unfold Obligations.ShiftsComplete
  refine ⟨fun w cnt r m hw => ⟨fun hc ty => ?none, fun hc hl => ?left, fun hr => ?right⟩, fun ty cnt s => ?instructions⟩
  case none => exact (shiftWordBy_left (by omega) ty r m).trans (by rw [hc]; rfl)
  case left =>
    simp only [shiftWordBy_left hl]
    exact ⟨⟨shiftTimes_left_arith .., shiftTimes_left_arith_m r m hc⟩, shiftTimes_left_zin ..,
      ⟨shiftTimes_left_rot .., shiftTimes_left_rot_m r m hc hw⟩, shiftTimes_left_lin r m _ hw⟩
  case right =>
    have hn : 0 < 64 - cnt.toNat := Nat.sub_pos_of_lt cnt.isLt
    simp only [shiftWordBy_right hr]
    exact ⟨⟨shiftTimes_right_arith .., shiftTimes_right_arith_m r m hn⟩,
      ⟨shiftTimes_right_zin .., shiftTimes_right_zin_m r m hn⟩,
      ⟨shiftTimes_right_rot .., shiftTimes_right_rot_m r m hn hw⟩, shiftTimes_right_lin r m _ hw⟩
  case instructions =>
    exact ⟨finish_setM (r := { s.cur with t := (shiftWordBy ty cnt s.cur.t s.cur.m).1 }) rfl _,
      finish_setM (r := { s.cur with d := (shiftWordBy ty cnt s.cur.d s.cur.m).1 }) rfl _,
      finish_setM (r := { s.cur with a := (shiftWordBy ty cnt s.cur.a s.cur.m).1 }) rfl _,
      finish_setM (r := s.cur.setAd (shiftWordBy ty cnt s.cur.ad s.cur.m).1) rfl _⟩

end Sys2Proof.Machine

namespace Sys2Proof.Machine

open Sys2Proof Sys2Proof.Config

/-! # Bytes and blocks -/

/-! ## One byte -/

/-- The bytes of a word as numbers: the left one is its upper half (R81). -/
theorem loadByte_toNat (w : Word) (half : Bool) :
    (loadByte w half).toNat = if half = true then w.toNat % 256 else w.toNat / 256 := by
  have hw := w.isLt
  cases half <;> simp [loadByte, leftByte, rightByte, Nat.shiftRight_eq_div_pow]
  omega

theorem loadByte_setWidth (w : Word) (half : Bool) :
    (loadByte w half).setWidth 16 = BitVec.ofNat 16 (if half = true then w.toNat % 256 else w.toNat / 256) := by
  rw [← loadByte_toNat, BitVec.ofNat_toNat]

theorem readByte_of_memRead {p : BytePos} {w : Word} {s t : State} (h : memRead p.addr s = .ok w t) :
    readByte p s = .ok (loadByte w p.half) t := by
  rw [readByte, h, Res.bind_ok]

theorem writeByteAt_of_locate {p : BytePos} {w : Word} {s s1 s2 : State} {q : TransTarget}
    (hr : memRead p.addr s = .ok w s1) (hl : locate .write .untagged p.addr s1 = .ok q s2) (v : Byte) :
    writeByteAt p v s = .ok () (s2.writePlace (storeByte w p.half v) q) := by
  rw [writeByteAt, hr, Res.bind_ok, memWrite_of_locate hl]

/-- A byte stored leaves all but the stores. -/
theorem writeByteAt_sameMachine {p : BytePos} {v : Byte} {s t : State} (h : writeByteAt p v s = .ok () t) :
    SameMachine s t := by
  obtain ⟨w, q, u, marks, -, rfl⟩ := writeByteAt_ok h
  exact marks.sameMachine.trans (u.sameMachine_writePlace _ q)

/-- LBYT loads the byte and goes on. -/
theorem exec_lbyt {s t : State} {v : Byte}
    (h : readByte ⟨byteAddr s.cur.t s.cur.x, byteSel s.cur.x⟩ s = .ok v t) :
    exec .lbyt s = .next (t.setCur { s.cur with a := v.setWidth 16, p := s.cur.p + 1 }) := by
  show execLbyt s = _
  rw [execLbyt, finish_bind_ok h, (readByte_ok h).cur]
  exact finish_ok_cur rfl

/-- SBYT stores the byte and goes on. -/
theorem exec_sbyt {s t : State}
    (h : writeByteAt ⟨byteAddr s.cur.t s.cur.x, byteSel s.cur.x⟩ (rightByte s.cur.a) s = .ok () t) :
    exec .sbyt s = .next (t.setCur { s.cur with p := s.cur.p + 1 }) :=
  (finish_bind_ok h _).trans (finish_setCur (writeByteAt_sameMachine h).cur RegSet.advance rfl)

/-- Settles O39: both instructions reach one word at the byte's address, and one half of it. -/
theorem byteLoadStore : Obligations.ByteLoadStore := by
  unfold Obligations.ByteLoadStore
  refine ⟨fun s s1 w hr => ⟨memRead_ok hr, ?lbyt, fun q s2 hl => ⟨?marks, ?sbyt, ?frame⟩⟩, fun w h v => ?halves,
    fun s hflat => ?flat⟩
  case lbyt =>
    rw [← loadByte_setWidth]
    exact exec_lbyt (readByte_of_memRead (p := ⟨byteAddr s.cur.t s.cur.x, byteSel s.cur.x⟩) hr)
  case marks => exact (memRead_ok hr).trans (locate_ok hl)
  case sbyt =>
    exact exec_sbyt (writeByteAt_of_locate (p := ⟨byteAddr s.cur.t s.cur.x, byteSel s.cur.x⟩) hr hl (rightByte s.cur.a))
  case frame => exact (s2.sameBytesBut_writePlace _ q).setCur _
  case halves =>
    exact ⟨loadByte_toNat w false, loadByte_toNat w true, loadByte_storeByte .., loadByte_storeByte_other ..⟩
  case flat =>
    obtain ⟨t, hw, -, hbytes⟩ :=
      writeByteAt_flat hflat ⟨byteAddr s.cur.t s.cur.x, byteSel s.cur.x⟩ (rightByte s.cur.a)
    refine ⟨_, exec_sbyt hw, ?_, fun c hc => ?_⟩
    · exact (State.byteOf_setCur _ _ _).trans ((hbytes _).trans (if_pos rfl))
    · exact (State.byteOf_setCur _ _ _).trans ((hbytes c).trans (if_neg fun e => hc (List.mem_singleton.2 e)))

/-! ## Registers of a block after some of its bytes (R405, R409) -/

theorem BytePos.advance_succ (n : Nat) (p : BytePos) : BytePos.advance (n + 1) p = (BytePos.advance n p).next := by
  induction n generalizing p with
  | zero => rfl
  | succ n ih => exact ih p.next

/-- A descriptor written twice holds what was written last. -/
theorem setBlockDescr_setBlockDescr {bits : Nat} (hb : bits ≤ 15) (d : Word) (h h' : Bool) {n n' : Nat}
    (hn : n < 2 ^ bits) (hn' : n' < 2 ^ bits) :
    setBlockDescr bits (setBlockDescr bits d h n) h' n' = setBlockDescr bits d h' n' := by
  refine BitVec.eq_of_getLsbD_eq fun k _ => ?_
  simp only [getLsbD_setBlockDescr hb _ _ hn, getLsbD_setBlockDescr hb _ _ hn']
  split
  · rfl
  · split <;> rfl

theorem blockLen_lt (bits : Nat) (d : Word) : blockLen bits d < 2 ^ bits := Nat.mod_lt _ (Nat.two_pow_pos bits)

theorem blockLen_sub_lt (bits : Nat) (d : Word) (k : Nat) : blockLen bits d - k < 2 ^ bits :=
  lt_of_le_of_lt (Nat.sub_le _ _) (blockLen_lt bits d)

/-- A descriptor written back as it was read. -/
theorem setBlockDescr_self {bits : Nat} (hb : bits ≤ 15) (d : Word) :
    setBlockDescr bits d d.msb (blockLen bits d) = d := by
  refine BitVec.eq_of_getLsbD_eq fun k _ => ?_
  rw [getLsbD_setBlockDescr hb d _ (blockLen_lt bits d)]
  split
  · subst_vars
    exact BitVec.msb_eq_getLsbD_last d
  · split
    · rw [blockLen, Nat.testBit_mod_two_pow, decide_eq_true ‹_›, Bool.true_and]
      rfl
    · rfl

/-- A block's second descriptor word after `k` of its bytes (R409). -/
def blockDescrAfter (bits k : Nat) (d1 d2 : Word) : Word :=
  setBlockDescr bits d2 (BytePos.advance k (descrPos d1 d2)).half (blockLen bits d2 - k)

/-- The destination block (X, T) after `k` of its bytes: `destMoved` in closed form. -/
def RegSet.destAfter (r : RegSet) (bits k : Nat) : RegSet :=
  { r with x := (BytePos.advance k (descrPos r.x r.t)).addr, t := blockDescrAfter bits k r.x r.t }

/-- Both blocks, (A, D) and (X, T), after `k` of their bytes: the registers of `bothMoved` in closed form. -/
def RegSet.bothAfter (r : RegSet) (bits k : Nat) : RegSet :=
  { r with
    a := (BytePos.advance k (descrPos r.a r.d)).addr
    d := blockDescrAfter bits k r.a r.d
    x := (BytePos.advance k (descrPos r.x r.t)).addr
    t := blockDescrAfter bits k r.x r.t }

section

variable {bits : Nat} (hb : bits ≤ 15)
include hb

theorem blockDescrAfter_zero (d1 d2 : Word) : blockDescrAfter bits 0 d1 d2 = d2 := setBlockDescr_self hb d2

theorem blockDescrAfter_msb (k : Nat) (d1 d2 : Word) :
    (blockDescrAfter bits k d1 d2).msb = (BytePos.advance k (descrPos d1 d2)).half :=
  setBlockDescr_msb hb _ _ (blockLen_sub_lt ..)

theorem blockDescrAfter_len (k : Nat) (d1 d2 : Word) :
    (blockDescrAfter bits k d1 d2).toNat % 2 ^ bits = d2.toNat % 2 ^ bits - k :=
  setBlockDescr_len hb _ _ (blockLen_sub_lt ..)

theorem setBlockDescr_kept (d : Word) (h : Bool) {n k : Nat} (hn : n < 2 ^ bits) (hk : bits ≤ k) (hk' : k < 15) :
    (setBlockDescr bits d h n).getLsbD k = d.getLsbD k := by
  rw [getLsbD_setBlockDescr hb d h hn, if_neg (by omega), if_neg (by omega)]

theorem blockDescrAfter_kept (k : Nat) (d1 d2 : Word) {j : Nat} (hj : bits ≤ j) (hj' : j < 15) :
    (blockDescrAfter bits k d1 d2).getLsbD j = d2.getLsbD j :=
  setBlockDescr_kept hb _ _ (blockLen_sub_lt ..) hj hj'

/-- The position that the registers name after `k` bytes. -/
theorem descrPos_blockDescrAfter (k : Nat) (d1 d2 : Word) :
    descrPos (BytePos.advance k (descrPos d1 d2)).addr (blockDescrAfter bits k d1 d2) =
      BytePos.advance k (descrPos d1 d2) := by
  rw [descrPos, blockDescrAfter_msb hb]

/-- One byte more. -/
theorem blockDescrAfter_succ (k : Nat) (d1 d2 : Word) :
    setBlockDescr bits (blockDescrAfter bits k d1 d2) (BytePos.advance k (descrPos d1 d2)).next.half
      (blockLen bits (blockDescrAfter bits k d1 d2) - 1) = blockDescrAfter bits (k + 1) d1 d2 := by
  have len : blockLen bits (blockDescrAfter bits k d1 d2) - 1 = blockLen bits d2 - (k + 1) := by
    rw [blockLen, blockDescrAfter_len hb, Nat.sub_sub, blockLen]
  rw [len, blockDescrAfter, blockDescrAfter, BytePos.advance_succ,
    setBlockDescr_setBlockDescr hb _ _ _ (blockLen_sub_lt ..) (blockLen_sub_lt ..)]

theorem RegSet.destAfter_zero (r : RegSet) : r.destAfter bits 0 = r := by
  rw [RegSet.destAfter, blockDescrAfter_zero hb]
  rfl

theorem RegSet.destMoved_destAfter (r : RegSet) (k : Nat) :
    (r.destAfter bits k).destMoved bits = r.destAfter bits (k + 1) := by
  simp only [RegSet.destMoved, RegSet.destAfter, descrPos_blockDescrAfter hb, blockDescrAfter_succ hb,
    BytePos.advance_succ]

theorem RegSet.bothAfter_zero (r : RegSet) : r.bothAfter bits 0 = r := by
  rw [RegSet.bothAfter, blockDescrAfter_zero hb, blockDescrAfter_zero hb]
  rfl

theorem RegSet.bothMoved_bothAfter (r : RegSet) (k : Nat) :
    ((r.bothAfter bits k).sourceMoved bits).destMoved bits = r.bothAfter bits (k + 1) := by
  simp only [RegSet.sourceMoved, RegSet.destMoved, RegSet.bothAfter, descrPos_blockDescrAfter hb,
    blockDescrAfter_succ hb, BytePos.advance_succ]

end

/-! ## Bytes of a block written one after the other -/

/-- The end of an instruction looks at no more of its beginning than at the flags. -/
theorem finish_congr {b b' : State} (h : b.cur.sts = b'.cur.sts) (r : Res Unit) : finish b r = finish b' r := by
  have flag : b.errorFlag = b'.errorFlag := congrArg (·.getLsbD 3) h
  cases r with
  | ok _ t => rw [finish_ok, finish_ok, State.raiseErrorFlag, State.raiseErrorFlag, flag]
  | trap c t => rfl
  | stop x => rfl

theorem SameMachine.refl (s : State) : SameMachine s s := (OnlyMarks.refl s).sameMachine

/-- A state that differs in the stores alone. -/
theorem sameMachine_of_stores {s t : State} (h : t = (s.setMem t.mem).setPt t.pt) : SameMachine s t := by
  rw [h]
  exact ⟨rfl, rfl, rfl, rfl, rfl, rfl, rfl, rfl, rfl, rfl, rfl, rfl, rfl, rfl, rfl, rfl⟩

theorem SameMachine.flat {s t : State} (h : SameMachine s t) (hs : s.Flat) : t.Flat :=
  hs.congr h.system.poni h.system.params

/-- A byte that cannot be stored: no register has changed. -/
theorem writeByteAt_trap_regs {p : BytePos} {v : Byte} {c : IntCode} {s t : State}
    (h : writeByteAt p v s = .trap c t) : t.regs = s.regs := (writeByteAt_trap h).regs

/-! ## BFILL -/

/-- A state inside BFILL, begun in `s`: `k` bytes are written, and the stores are those of `u`. -/
def State.filling (s u : State) (k : Nat) : State := u.setCur (s.cur.destAfter s.params.blockLenBits k)

section

variable {s u v : State} {c : IntCode} (same : SameMachine s u) (hb : s.params.blockLenBits ≤ 15)
include same hb

theorem State.filling_zero : s.filling u 0 = u := by
  rw [State.filling, RegSet.destAfter_zero hb, ← same.cur, State.setCur_self]

/-- The next byte of BFILL is written at its place in the block. -/
theorem writeByteAt_filling (k : Nat) :
    writeByteAt (descrPos (s.filling u k).cur.x (s.filling u k).cur.t) (rightByte (s.filling u k).cur.a)
        (s.filling u k) =
      (writeByteAt (BytePos.advance k (descrPos s.cur.x s.cur.t)) (rightByte s.cur.a) u).mapState
        (s.filling · k) := by
  have place : descrPos (s.filling u k).cur.x (s.filling u k).cur.t =
      BytePos.advance k (descrPos s.cur.x s.cur.t) := by
    rw [State.filling, State.setCur_cur]
    exact descrPos_blockDescrAfter hb k s.cur.x s.cur.t
  have byte : (s.filling u k).cur.a = s.cur.a := by rw [State.filling, State.setCur_cur]; rfl
  rw [place, byte]
  exact writeByteAt_setCur (by rw [same.cur]; rfl) _ _

theorem fillBytes_filling_ok {k : Nat}
    (h : writeByteAt (BytePos.advance k (descrPos s.cur.x s.cur.t)) (rightByte s.cur.a) u = .ok () v) (n : Nat) :
    fillBytes (n + 1) (s.filling u k) = fillBytes n (s.filling v (k + 1)) := by
  have params : v.params = s.params := (same.trans (writeByteAt_sameMachine h)).system.params
  have moved : (s.filling v k).setCur ((s.filling v k).cur.destMoved (s.filling v k).params.blockLenBits) =
      s.filling v (k + 1) := by
    simp only [State.filling, State.setCur_cur, State.setCur_params, State.setCur_setCur, params,
      RegSet.destMoved_destAfter hb]
  rw [fillBytes, writeByteAt_filling same hb, h, Res.mapState_ok, Res.bind_ok, moved]

theorem fillBytes_filling_trap {k : Nat}
    (h : writeByteAt (BytePos.advance k (descrPos s.cur.x s.cur.t)) (rightByte s.cur.a) u = .trap c v) (n : Nat) :
    fillBytes (n + 1) (s.filling u k) = .trap c (s.filling v k) := by
  rw [fillBytes, writeByteAt_filling same hb, h, Res.mapState_trap, Res.bind_trap]

/-- Where all the bytes can be written, BFILL writes them. -/
theorem fillBytes_filling_writeBytes {k n : Nat} {p : BytePos}
    (hp : BytePos.advance k (descrPos s.cur.x s.cur.t) = p)
    (h : writeBytes p (List.replicate n (rightByte s.cur.a)) u = .ok () v) :
    fillBytes n (s.filling u k) = .ok () (s.filling v (k + n)) := by
  induction n generalizing u k p with
  | zero => cases h; rfl
  | succ n ih =>
    obtain ⟨_, u', hw, hrest⟩ := Res.bind_eq_ok.1 h
    rw [fillBytes_filling_ok same hb (by rw [hp]; exact hw),
      ih (same.trans (writeByteAt_sameMachine hw)) (by rw [BytePos.advance_succ, hp]) hrest, Nat.add_right_comm,
      Nat.add_assoc]

end

theorem exec_bfill {s : State} {n : Nat} (h : blockLen s.params.blockLenBits s.cur.t = n) :
    exec .bfill s = finish s ((fillBytes n s).bind fun _ u => .ok () u.advance) := by
  rw [← h]
  rfl

theorem blockLen_le {bits : Nat} (hb : bits ≤ 15) (d : Word) : blockLen bits d ≤ 32768 :=
  le_trans (blockLen_lt bits d).le (Nat.pow_le_pow_right (by decide) hb)

/-- A field written with equal bytes holds that byte in every cell. -/
theorem byteOf_of_bytesAt_replicate {t : State} {n : Nat} {p : BytePos} {b : Byte}
    (h : t.bytesAt n p = List.replicate n b) : ∀ c ∈ fieldCells n p, t.byteOf c = b := by
  intro c hc
  obtain ⟨q, hq, rfl⟩ := List.mem_map.1 hc
  have read : t.byteOf (flatCell q) ∈ t.bytesAt n p := List.mem_map_of_mem hq
  rw [h] at read
  exact List.eq_of_mem_replicate read

/-- BFILL where all its bytes can be written. -/
theorem exec_bfill_of_writeBytes {s u : State} {n : Nat} (hb : s.params.blockLenBits ≤ 15)
    (hn : blockLen s.params.blockLenBits s.cur.t = n)
    (hw : writeBytes (descrPos s.cur.x s.cur.t) (List.replicate n (rightByte s.cur.a)) s = .ok () u) :
    exec .bfill s = .next (u.setCur (s.cur.destAfter s.params.blockLenBits n).advance) := by
  have filled := fillBytes_filling_writeBytes (SameMachine.refl s) hb (k := 0) rfl hw
  rw [State.filling_zero (SameMachine.refl s) hb, Nat.zero_add] at filled
  rw [exec_bfill hn, finish_bind_ok filled, State.filling, State.advance, State.setCur_cur, State.setCur_setCur]
  exact finish_ok_cur rfl

/-- Settles O40: the bytes of the block are written in order, X and T following. -/
theorem byteFill : Obligations.ByteFill := by
  unfold Obligations.ByteFill
  refine ⟨fun s hflat hb => ?flat, fun s u hb hlen => ?first⟩
  case flat =>
    have hlen : blockLen s.params.blockLenBits s.cur.t ≤ 131072 := le_trans (blockLen_le hb _) (by decide)
    obtain ⟨u, hw, hstores, hbytes, hframe⟩ := writeBytes_flat hflat (descrPos s.cur.x s.cur.t)
      (List.replicate (blockLen s.params.blockLenBits s.cur.t) (rightByte s.cur.a)) (by rwa [List.length_replicate])
    rw [List.length_replicate] at hbytes hframe
    have same := sameMachine_of_stores hstores
    refine ⟨_, exec_bfill_of_writeBytes hb rfl hw, fun c hc => ?_, hframe.setCur _, ?_, ?_, ?_, fun k hk hk' => ?_,
      same.sameOtherLevels_setCur _, same.sameSystem_setCur _⟩
    · exact (State.byteOf_setCur _ _ _).trans (byteOf_of_bytesAt_replicate hbytes c hc)
    all_goals rw [State.setCur_cur]
    · rfl
    · exact blockDescrAfter_msb hb ..
    · exact (blockDescrAfter_len hb ..).trans (Nat.sub_self _)
    · exact blockDescrAfter_kept hb _ _ _ hk hk'
  case first =>
    obtain ⟨n, hn⟩ := Nat.exists_eq_succ_of_ne_zero hlen
    have start := State.filling_zero (SameMachine.refl s) hb
    refine ⟨fun c h => ⟨?_, writeByteAt_trap_regs h⟩, fun h => ⟨blockDescrAfter s.params.blockLenBits 1 s.cur.x s.cur.t,
      ?_, blockDescrAfter_msb hb .., blockDescrAfter_len hb .., fun k => blockDescrAfter_kept hb 1 _ _⟩⟩
    · have fault := fillBytes_filling_trap (SameMachine.refl s) hb (k := 0) h n
      rw [start, State.filling_zero (writeByteAt_trap h).sameMachine hb] at fault
      rw [exec_bfill hn, finish_bind_trap fault]
    · have same := writeByteAt_sameMachine h
      have step := fillBytes_filling_ok (SameMachine.refl s) hb (k := 0) h n
      rw [start] at step
      have hn' : blockLen (s.filling u 1).params.blockLenBits (s.filling u 1).cur.t = n := by
        rw [State.filling, State.setCur_cur, State.setCur_params, same.system.params]
        exact (blockDescrAfter_len hb 1 _ _).trans (by rw [hn]; rfl)
      show exec .bfill s = exec .bfill (s.filling u 1)
      rw [exec_bfill hn, exec_bfill hn', step]
      refine finish_congr ?_ _
      rw [State.filling, State.setCur_cur]
      rfl

end Sys2Proof.Machine

namespace Sys2Proof.Machine

open Sys2Proof Sys2Proof.Config

/-! # MOVB and MOVBF -/

/-- A state inside MOVB or MOVBF, begun in `s`: `k` bytes are written, and the stores are those of `u`. -/
def State.moving (s u : State) (k : Nat) : State := u.setCur (s.cur.bothAfter s.params.blockLenBits k)

/-- Where byte `k` of the source block is. -/
def State.sourcePos (s : State) (k : Nat) : BytePos := BytePos.advance k (descrPos s.cur.a s.cur.d)

/-- Where byte `k` of the destination block is. -/
def State.destPos (s : State) (k : Nat) : BytePos := BytePos.advance k (descrPos s.cur.x s.cur.t)

/-! ## One byte moved -/

section

variable {s u v : State} {c : IntCode} {b : Byte} (same : SameMachine s u) (hb : s.params.blockLenBits ≤ 15)

include hb in
theorem State.sourcePos_moving (u : State) (k : Nat) :
    descrPos (s.moving u k).cur.a (s.moving u k).cur.d = s.sourcePos k := by
  rw [State.moving, State.setCur_cur]
  exact descrPos_blockDescrAfter hb k s.cur.a s.cur.d

include hb in
theorem State.destPos_moving (u : State) (k : Nat) :
    descrPos (s.moving u k).cur.x (s.moving u k).cur.t = s.destPos k := by
  rw [State.moving, State.setCur_cur]
  exact descrPos_blockDescrAfter hb k s.cur.x s.cur.t

include same

theorem readByte_moving (p : BytePos) (k : Nat) :
    readByte p (s.moving u k) = (readByte p u).mapState (s.moving · k) :=
  readByte_setCur (by rw [same.cur]; rfl) p

theorem writeByteAt_moving (p : BytePos) (b : Byte) (k : Nat) :
    writeByteAt p b (s.moving u k) = (writeByteAt p b u).mapState (s.moving · k) :=
  writeByteAt_setCur (by rw [same.cur]; rfl) p b

include hb

theorem State.moving_zero : s.moving u 0 = u := by
  rw [State.moving, RegSet.bothAfter_zero hb, ← same.cur, State.setCur_self]

theorem State.bothMoved_moving (k : Nat) : (s.moving u k).bothMoved = s.moving u (k + 1) := by
  simp only [State.bothMoved, State.moving, State.setCur_cur, State.setCur_params, State.setCur_setCur,
    same.system.params, RegSet.bothMoved_bothAfter hb]

theorem moveBuffered_moving_ok {k : Nat} (h : writeByteAt (s.destPos k) b u = .ok () v) (bs : List Byte) :
    moveBuffered (b :: bs) (s.moving u k) = moveBuffered bs (s.moving v (k + 1)) := by
  rw [moveBuffered, State.destPos_moving hb, writeByteAt_moving same, h, Res.mapState_ok, Res.bind_ok,
    State.bothMoved_moving (same.trans (writeByteAt_sameMachine h)) hb]

theorem moveBuffered_moving_trap {k : Nat} (h : writeByteAt (s.destPos k) b u = .trap c v) (bs : List Byte) :
    moveBuffered (b :: bs) (s.moving u k) = .trap c (s.moving v k) := by
  rw [moveBuffered, State.destPos_moving hb, writeByteAt_moving same, h, Res.mapState_trap, Res.bind_trap]

theorem moveForward_moving_ok {k : Nat} {w : State} (hr : readByte (s.sourcePos k) u = .ok b v)
    (hw : writeByteAt (s.destPos k) b v = .ok () w) (n : Nat) :
    moveForward (n + 1) (s.moving u k) = moveForward n (s.moving w (k + 1)) := by
  have same' := same.trans (readByte_ok hr).sameMachine
  simp only [moveForward, State.sourcePos_moving hb, readByte_moving same, hr, Res.mapState_ok, Res.bind_ok,
    State.destPos_moving hb, writeByteAt_moving same', hw,
    State.bothMoved_moving (same'.trans (writeByteAt_sameMachine hw)) hb]

theorem moveForward_moving_read_trap {k : Nat} (h : readByte (s.sourcePos k) u = .trap c v) (n : Nat) :
    moveForward (n + 1) (s.moving u k) = .trap c (s.moving v k) := by
  rw [moveForward, State.sourcePos_moving hb, readByte_moving same, h, Res.mapState_trap, Res.bind_trap]

theorem moveForward_moving_write_trap {k : Nat} {w : State} (hr : readByte (s.sourcePos k) u = .ok b v)
    (hw : writeByteAt (s.destPos k) b v = .trap c w) (n : Nat) :
    moveForward (n + 1) (s.moving u k) = .trap c (s.moving w k) := by
  simp only [moveForward, State.sourcePos_moving hb, readByte_moving same, hr, Res.mapState_ok, Res.bind_ok,
    State.destPos_moving hb, writeByteAt_moving (same.trans (readByte_ok hr).sameMachine), hw, Res.mapState_trap,
    Res.bind_trap]

end

/-! ## Some bytes moved, `f` being the states between them -/

section

variable {s u : State} {f : Nat → State} (start : SameMachine s (f 0)) (hb : s.params.blockLenBits ≤ 15)
include start hb

theorem moveBuffered_steps {bs : List Byte} {k : Nat} (hk : k ≤ bs.length)
    (h : ∀ j b, j < k → bs[j]? = some b → writeByteAt (s.destPos j) b (f j) = .ok () (f (j + 1))) :
    SameMachine s (f k) ∧ moveBuffered bs (f 0) = moveBuffered (bs.drop k) (s.moving (f k) k) := by
  induction k with
  | zero => exact ⟨start, by rw [State.moving_zero start hb]; rfl⟩
  | succ k ih =>
    obtain ⟨same, e⟩ := ih (by omega) fun j b hj => h j b (by omega)
    have hw := h k _ (by omega) (List.getElem?_eq_getElem hk)
    refine ⟨same.trans (writeByteAt_sameMachine hw), ?_⟩
    rw [e, List.drop_eq_getElem_cons hk, moveBuffered_moving_ok same hb hw]

theorem moveForward_steps {n k : Nat} (hk : k ≤ n)
    (h : ∀ j, j < k → ∃ b v, readByte (s.sourcePos j) (f j) = .ok b v ∧
      writeByteAt (s.destPos j) b v = .ok () (f (j + 1))) :
    SameMachine s (f k) ∧ moveForward n (f 0) = moveForward (n - k) (s.moving (f k) k) := by
  induction k with
  | zero => exact ⟨start, by rw [State.moving_zero start hb]; rfl⟩
  | succ k ih =>
    obtain ⟨same, e⟩ := ih (by omega) fun j hj => h j (by omega)
    obtain ⟨b, v, hr, hw⟩ := h k (by omega)
    refine ⟨(same.trans (readByte_ok hr).sameMachine).trans (writeByteAt_sameMachine hw), ?_⟩
    rw [e, show n - k = n - (k + 1) + 1 by omega, moveForward_moving_ok same hb hr hw]

end

/-! ## Moves with memory management off -/

/-- Where all the bytes can be written, the buffer is written into the block. -/
theorem moveBuffered_moving_writeBytes {s u v : State} (same : SameMachine s u) (hb : s.params.blockLenBits ≤ 15)
    {k : Nat} {bs : List Byte} (h : writeBytes (s.destPos k) bs u = .ok () v) :
    moveBuffered bs (s.moving u k) = .ok () (s.moving v (k + bs.length)) := by
  induction bs generalizing u k with
  | nil => cases h; rfl
  | cons b bs ih =>
    obtain ⟨_, u', hw, hrest⟩ := Res.bind_eq_ok.1 h
    rw [State.destPos, ← BytePos.advance_succ] at hrest
    rw [moveBuffered_moving_ok same hb hw, ih (same.trans (writeByteAt_sameMachine hw)) hrest, List.length_cons,
      Nat.add_right_comm, Nat.add_assoc]

/-- Each cell of `dst` holds what its cell of `src` held when it was read, after the cells of `dst` before it were
written: the bytes before the move are those of `s`, after it those of `t`. -/
def CopiedForward (src dst : List (Store × Nat)) (s t : State) : Prop :=
  ∀ k c d, src[k]? = some c → dst[k]? = some d →
    t.byteOf d = if c ∈ dst.take k then t.byteOf c else s.byteOf c

theorem CopiedForward.cons {src dst : List (Store × Nat)} {c d : Store × Nat} {s u t : State} (hd : d ∉ dst)
    (first : ∀ e, u.byteOf e = if e = d then s.byteOf c else s.byteOf e) (frame : SameBytesBut dst u t)
    (rest : CopiedForward src dst u t) : CopiedForward (c :: src) (d :: dst) s t := by
  have written : t.byteOf d = s.byteOf c := by rw [frame d hd, first, if_pos rfl]
  intro k c' d' hc' hd'
  cases k with
  | zero =>
    obtain rfl : c = c' := by simpa using hc'
    obtain rfl : d = d' := by simpa using hd'
    simpa using written
  | succ k =>
    rw [rest k c' d' (by simpa using hc') (by simpa using hd'), List.take_succ_cons, first c']
    by_cases e : c' = d
    · subst e
      rw [if_neg fun m => hd (List.mem_of_mem_take m), if_pos rfl, if_pos List.mem_cons_self, written]
    · rw [if_neg e]
      simp [e]

/-- MOVBF with memory management off, one byte after the other. -/
theorem moveForward_moving_flat {s u : State} (same : SameMachine s u) (hb : s.params.blockLenBits ≤ 15)
    (hflat : u.Flat) (k : Nat) {n : Nat} (hn : n ≤ 131072) :
    ∃ v, moveForward n (s.moving u k) = .ok () (s.moving v (k + n)) ∧ SameMachine s v ∧
      SameBytesBut (fieldCells n (s.destPos k)) u v ∧
      CopiedForward (fieldCells n (s.sourcePos k)) (fieldCells n (s.destPos k)) u v := by
  induction n generalizing u k with
  | zero => exact ⟨u, rfl, same, fun _ _ => rfl, fun j c d hc => by simp [fieldCells, positions] at hc⟩
  | succ n ih =>
    obtain ⟨w, hw, hstores, hbytes⟩ := writeByteAt_flat hflat (s.destPos k) (u.byteOf (flatCell (s.sourcePos k)))
    have stored := sameMachine_of_stores hstores
    obtain ⟨v, hmove, same', frame, copied⟩ := ih (same.trans stored) (stored.flat hflat) (k + 1) (by omega)
    have nextDest : s.destPos (k + 1) = (s.destPos k).next := BytePos.advance_succ ..
    have nextSource : s.sourcePos (k + 1) = (s.sourcePos k).next := BytePos.advance_succ ..
    rw [nextDest] at frame copied
    rw [nextSource] at copied
    have hd : flatCell (s.destPos k) ∉ fieldCells n (s.destPos k).next :=
      (List.nodup_cons.1 (fieldCells_succ _ _ ▸ fieldCells_nodup hn (s.destPos k))).1
    refine ⟨v, ?_, same', fun c hc => ?_, CopiedForward.cons hd hbytes frame copied⟩
    · rw [moveForward_moving_ok same hb (readByte_flat hflat _) hw, hmove, Nat.add_right_comm, Nat.add_assoc]
    · rw [fieldCells_succ, List.mem_cons, not_or] at hc
      rw [frame c hc.2, hbytes, if_neg hc.1]

/-- The registers after a move of `n` bytes: the source's length is 0, the destination's `n` (R407). -/
def RegSet.moveEnd (r : RegSet) (bits n : Nat) : RegSet :=
  { r with
    a := (BytePos.advance n (descrPos r.a r.d)).addr
    d := setBlockDescr bits r.d (BytePos.advance n (descrPos r.a r.d)).half 0
    x := (BytePos.advance n (descrPos r.x r.t)).addr
    t := setBlockDescr bits r.t (BytePos.advance n (descrPos r.x r.t)).half n
    p := r.p + 1 }

theorem State.moveDone_moving {s u : State} (same : SameMachine s u) (hb : s.params.blockLenBits ≤ 15) {n : Nat}
    (hn : n < 2 ^ s.params.blockLenBits) :
    (s.moving u n).moveDone n = u.setCur (s.cur.moveEnd s.params.blockLenBits n) := by
  have h0 : 0 < 2 ^ s.params.blockLenBits := Nat.two_pow_pos _
  simp only [State.moveDone, State.moving, State.setCur_cur, State.setCur_setCur, State.setCur_params,
    same.system.params, RegSet.bothAfter, blockDescrAfter_msb hb]
  simp only [blockDescrAfter, setBlockDescr_setBlockDescr hb _ _ _ (blockLen_sub_lt ..) h0,
    setBlockDescr_setBlockDescr hb _ _ _ (blockLen_sub_lt ..) hn]
  rfl

theorem State.moveCount_lt (s : State) : s.moveCount < 2 ^ s.params.blockLenBits :=
  lt_of_le_of_lt (Nat.min_le_left _ _) (blockLen_lt _ _)

/-- MOVB and MOVBF after their last byte. -/
theorem finish_moveDone {s u : State} (same : SameMachine s u) (hb : s.params.blockLenBits ≤ 15) {r : Res Unit}
    (h : r = .ok () (s.moving u s.moveCount)) :
    finish s (r.bind fun _ t => .ok () (t.moveDone s.moveCount)) =
      .next (u.setCur (s.cur.moveEnd s.params.blockLenBits s.moveCount)) := by
  rw [finish_bind_ok h, State.moveDone_moving same hb s.moveCount_lt]
  exact finish_ok_cur rfl

theorem readBytes_onlyMarks (n : Nat) (p : BytePos) (s : State) : (readBytes n p s).All (OnlyMarks s) := by
  induction n generalizing p s with
  | zero => exact OnlyMarks.refl s
  | succ n ih =>
    cases h : readByte p s with
    | ok b u =>
      rw [readBytes, h, Res.bind_ok]
      exact ((ih p.next u).mono fun _ => (readByte_ok h).trans).bind fun _ _ _ k => k
    | trap c u =>
      rw [readBytes, h, Res.bind_trap]
      exact readByte_trap h ▸ OnlyMarks.refl s
    | stop x =>
      rw [readBytes, h, Res.bind_stop]
      trivial

/-- The bytes of a field, by its cells. -/
theorem State.map_byteOf_fieldCells (s : State) (n : Nat) (p : BytePos) :
    (fieldCells n p).map s.byteOf = s.bytesAt n p := by
  rw [fieldCells, List.map_map]
  rfl

/-- Settles O41: both move the bytes in order, the registers following; MOVB after all are read. -/
theorem byteMove : Obligations.ByteMove := by
  unfold Obligations.ByteMove
  refine ⟨fun s hflat hb => ?flat, fun s s1 u c f k hb => ?faults⟩
  case flat =>
    intro bits n src dst eS eD ends
    have self := SameMachine.refl s
    have hn : n < 2 ^ bits := s.moveCount_lt
    have hn' : n ≤ 131072 :=
      le_trans hn.le (le_trans (Nat.pow_le_pow_right (by decide) hb) (by decide : 2 ^ 15 ≤ 131072))
    have done (u : State) (same : SameMachine s u) (frame : SameBytesBut dst s u) :
        ends (u.setCur (s.cur.moveEnd bits n)) := by
      have h0 : 0 < 2 ^ bits := Nat.two_pow_pos bits
      refine ⟨frame.setCur _, same.sameOtherLevels_setCur _, same.sameSystem_setCur _, ?_⟩
      rw [State.setCur_cur]
      exact ⟨rfl, setBlockDescr_msb hb _ _ h0, setBlockDescr_len hb _ _ h0, setBlockDescr_msb hb _ _ hn,
        setBlockDescr_len hb _ _ hn, fun k hk hk' =>
          ⟨setBlockDescr_kept hb _ _ h0 hk hk', setBlockDescr_kept hb _ _ hn hk hk'⟩⟩
    constructor
    · obtain ⟨u, hw, hstores, hbytes, frame⟩ := writeBytes_flat hflat (s.destPos 0)
        (s.bytesAt n (s.sourcePos 0)) (by rwa [State.bytesAt_length])
      rw [State.bytesAt_length] at hbytes frame
      have same := sameMachine_of_stores hstores
      have moved := moveBuffered_moving_writeBytes self hb hw
      rw [State.moving_zero self hb, State.bytesAt_length, Nat.zero_add] at moved
      refine ⟨u.setCur (s.cur.moveEnd bits n), (finish_bind_ok (readBytes_flat hflat n _) _).trans
        (finish_moveDone same hb moved), done u same frame, ?_⟩
      have read : (u.setCur (s.cur.moveEnd bits n)).byteOf = u.byteOf := funext (State.byteOf_setCur _ _)
      rw [read]
      exact (u.map_byteOf_fieldCells ..).trans (hbytes.trans (s.map_byteOf_fieldCells ..).symm)
    · obtain ⟨u, hmove, same, frame, copied⟩ := moveForward_moving_flat self hb hflat 0 hn'
      rw [State.moving_zero self hb, Nat.zero_add] at hmove
      refine ⟨_, finish_moveDone same hb hmove, done u same frame, fun k c d hc hd => ?_⟩
      rw [State.byteOf_setCur, State.byteOf_setCur]
      exact copied k c d hc hd
  case faults =>
    intro bits n src dst leftAt
    have left (i : Instr) (h : exec i s = takeTrap c (s.moving u k)) : leftAt i :=
      ⟨_, _, h, blockDescrAfter_msb hb .., blockDescrAfter_len hb .., blockDescrAfter_msb hb ..,
        blockDescrAfter_len hb .., fun j hj hj' =>
          ⟨blockDescrAfter_kept hb _ _ _ hj hj', blockDescrAfter_kept hb _ _ _ hj hj'⟩⟩
    refine ⟨fun h => ⟨finish_bind_trap h _, ?_⟩, fun bs hr hf steps b hbk h => left _ ?_, fun hf hk steps => ?_⟩
    · have marks := readBytes_onlyMarks n (src 0) s
      rw [h] at marks
      exact marks.regs
    · have marks := readBytes_onlyMarks n (src 0) s
      rw [hr] at marks
      subst hf
      obtain ⟨hk, rfl⟩ := List.getElem?_eq_some_iff.1 hbk
      obtain ⟨same, moved⟩ := moveBuffered_steps marks.sameMachine hb hk.le steps
      rw [List.drop_eq_getElem_cons hk, moveBuffered_moving_trap same hb h] at moved
      exact (finish_bind_ok hr _).trans (finish_bind_trap moved _)
    · subst hf
      obtain ⟨same, moved⟩ := moveForward_steps (SameMachine.refl _) hb hk.le steps
      rw [show n - k = n - (k + 1) + 1 by omega] at moved
      exact ⟨fun h => left _ (finish_bind_trap (moved.trans (moveForward_moving_read_trap same hb h _)) _),
        fun b v hr h => left _ (finish_bind_trap (moved.trans (moveForward_moving_write_trap same hb hr h _)) _)⟩

end Sys2Proof.Machine

namespace Sys2Proof.Machine

open Sys2Proof Sys2Proof.Config

/-! # MOVEW -/

/-- An end in physical memory, whose bank register goes on with the address (R420). -/
def MoveEnd.isPhys : MoveEnd → Bool
  | .phys => true
  | _ => false

/-- `MoveEnd.writeWord` with the registers that address the word named apart from the state. -/
def MoveEnd.writeAt (e : MoveEnd) (r : RegSet) (v : Word) (s : State) : Res Unit :=
  match e with
  | .pt => memWriteVia .viaPt r.t v s
  | .apt => memWriteVia .viaApt r.t v s
  | .phys => physWrite r.x r.t v s

theorem MoveEnd.writeWord_eq (e : MoveEnd) (v : Word) (s : State) : e.writeWord v s = e.writeAt s.cur v s := by
  cases e <;> rfl

theorem MoveEnd.readWord_ok {e : MoveEnd} {v : Word} {s t : State} (h : e.readWord s = .ok v t) : OnlyMarks s t := by
  cases e with
  | pt => exact memReadVia_ok h
  | apt => exact memReadVia_ok h
  | phys =>
    rcases physRead_cases s.cur.a s.cur.d s with answer | answer
    · cases answer.symm.trans h
      exact OnlyMarks.refl s
    · cases answer.symm.trans h

theorem memWriteVia_sameMachine {g : TableTag} {a v : Word} {s t : State} (h : memWriteVia g a v s = .ok () t) :
    SameMachine s t := by
  obtain ⟨p, u, hl, rfl⟩ := memWriteVia_ok h
  exact (locate_ok hl).sameMachine.trans (u.sameMachine_writePlace v p)

theorem MoveEnd.writeAt_sameMachine {e : MoveEnd} {r : RegSet} {v : Word} {s t : State}
    (h : e.writeAt r v s = .ok () t) : SameMachine s t := by
  cases e with
  | pt => exact memWriteVia_sameMachine h
  | apt => exact memWriteVia_sameMachine h
  | phys =>
    rcases physWrite_cases r.x r.t v s with answer | answer
    · cases answer.symm.trans h
      exact s.sameMachine_writePlace v _
    · cases answer.symm.trans h

/-- The registers after one word: an address that was the last of its bank carries, the last word goes on. -/
theorem RegSet.wordMoved_eq (r : RegSet) (src dst : MoveEnd) : r.wordMoved src dst =
    { r with
      d := r.d + 1, a := if src.isPhys = true ∧ r.d = 0o177777 then r.a + 1 else r.a,
      t := r.t + 1, x := if dst.isPhys = true ∧ r.t = 0o177777 then r.x + 1 else r.x,
      l := r.l - 1, p := if r.l = 1 then r.p + 1 else r.p } := by
  have last (w : Word) : w + 1 = 0 ↔ w = 0o177777 := by constructor <;> intro h <;> bv_omega
  have one (w : Word) : w - 1 = 0 ↔ w = 1 := by constructor <;> intro h <;> bv_omega
  have phys (e : MoveEnd) : e = .phys ↔ e.isPhys = true := by cases e <;> simp [MoveEnd.isPhys]
  simp only [RegSet.wordMoved, last, one, phys]

/-- With L = 0 or above 2048 nothing moves. -/
theorem finish_moveStep_nothing {s : State} (h : ¬(s.cur.l ≠ 0 ∧ s.cur.l.toNat ≤ 2048)) (src dst : MoveEnd) :
    finish s (moveStep src dst s) = .next (s.setCur { s.cur with p := s.cur.p + 1 }) := by
  rw [moveStep, if_pos (by rwa [not_and_or, not_not, not_le] at h)]
  exact finish_ok_cur rfl

/-- A word that can be read and written moves. -/
theorem finish_moveStep {src dst : MoveEnd} {s s1 s2 : State} {v : Word} (h : s.cur.l ≠ 0 ∧ s.cur.l.toNat ≤ 2048)
    (hr : src.readWord s = .ok v s1) (hw : dst.writeAt s.cur v s1 = .ok () s2) :
    finish s (moveStep src dst s) = .next (s2.setCur { s.cur with
      d := s.cur.d + 1, a := if src.isPhys = true ∧ s.cur.d = 0o177777 then s.cur.a + 1 else s.cur.a,
      t := s.cur.t + 1, x := if dst.isPhys = true ∧ s.cur.t = 0o177777 then s.cur.x + 1 else s.cur.x,
      l := s.cur.l - 1, p := if s.cur.l = 1 then s.cur.p + 1 else s.cur.p }) := by
  have hc := ((MoveEnd.readWord_ok hr).sameMachine.trans (MoveEnd.writeAt_sameMachine hw)).cur
  have hw' : dst.writeWord v s1 = .ok () s2 := by rw [MoveEnd.writeWord_eq, (MoveEnd.readWord_ok hr).cur, hw]
  rw [moveStep, if_neg (not_or.2 ⟨h.1, not_lt.2 h.2⟩), finish_bind_ok hr, finish_bind_ok hw', hc,
    ← RegSet.wordMoved_eq]
  exact finish_ok_cur rfl

/-- With memory management off the two page tables are one address space (R421). -/
theorem locate_tag_off {s : State} (h : s.poni = false) (k : AccessKind) (g g' : TableTag) (a : Word) :
    locate k g a s = locate k g' a s := by
  simp [locate, h]

theorem MoveEnd.readWord_apt_off {s : State} (h : s.poni = false) : MoveEnd.apt.readWord s = MoveEnd.pt.readWord s := by
  show (locate _ _ _ s).bind _ = (locate _ _ _ s).bind _
  rw [locate_tag_off h]

theorem MoveEnd.writeWord_apt_off {s : State} (h : s.poni = false) (v : Word) :
    MoveEnd.apt.writeWord v s = MoveEnd.pt.writeWord v s := by
  show (locate _ _ _ s).bind _ = (locate _ _ _ s).bind _
  rw [locate_tag_off h]

theorem moveStep_source_apt_off {s : State} (h : s.poni = false) (dst : MoveEnd) :
    moveStep .apt dst s = moveStep .pt dst s := by
  have reg (r : RegSet) : r.wordMoved .apt dst = r.wordMoved .pt dst := rfl
  simp only [moveStep, MoveEnd.readWord_apt_off h, reg]

theorem moveStep_dest_apt_off {s : State} (h : s.poni = false) (src : MoveEnd) :
    moveStep src .apt s = moveStep src .pt s := by
  have reg (r : RegSet) : r.wordMoved src .apt = r.wordMoved src .pt := rfl
  unfold moveStep
  cases hr : src.readWord s with
  | ok v u =>
    simp only [Res.bind_ok, MoveEnd.writeWord_apt_off ((MoveEnd.readWord_ok hr).poni.trans h), reg]
  | trap c u => rfl
  | stop x => rfl

/-- Settles O42: a word read from one end and written to the other, or nothing. -/
theorem wordMove : Obligations.WordMove := by
  unfold Obligations.WordMove
  intro s s1 s2 v r stay moved go
  have granted {body : Res Unit} (he : s.entitled = true) : finish s (privileged s body) = finish s body :=
    congrArg _ (privileged_entitled he body)
  refine ⟨fun h => ?none, fun h he => ?nonePrivileged, fun h hr => ?pt, fun h hr => ?apt, fun h he hr => ?phys,
    fun hoff => ?off⟩
  case none => exact ⟨finish_moveStep_nothing h .pt .pt, finish_moveStep_nothing h .pt .apt,
    finish_moveStep_nothing h .apt .pt, finish_moveStep_nothing h .apt .apt⟩
  case nonePrivileged =>
    exact ⟨(granted he).trans (finish_moveStep_nothing h .pt .phys),
      (granted he).trans (finish_moveStep_nothing h .apt .phys),
      (granted he).trans (finish_moveStep_nothing h .phys .pt),
      (granted he).trans (finish_moveStep_nothing h .phys .apt),
      (granted he).trans (finish_moveStep_nothing h .phys .phys)⟩
  case pt =>
    exact ⟨finish_moveStep (src := .pt) (dst := .pt) h hr, finish_moveStep (src := .pt) (dst := .apt) h hr,
      fun he hw => (granted he).trans (finish_moveStep (src := .pt) (dst := .phys) h hr hw)⟩
  case apt =>
    exact ⟨finish_moveStep (src := .apt) (dst := .pt) h hr, finish_moveStep (src := .apt) (dst := .apt) h hr,
      fun he hw => (granted he).trans (finish_moveStep (src := .apt) (dst := .phys) h hr hw)⟩
  case phys =>
    exact ⟨fun hw => (granted he).trans (finish_moveStep (src := .phys) (dst := .pt) h hr hw),
      fun hw => (granted he).trans (finish_moveStep (src := .phys) (dst := .apt) h hr hw),
      fun hw => (granted he).trans (finish_moveStep (src := .phys) (dst := .phys) h hr hw)⟩
  case off =>
    have privilegedStep {src src' dst dst' : MoveEnd} (e : moveStep src dst s = moveStep src' dst' s) :
        finish s (privileged s (moveStep src dst s)) = finish s (privileged s (moveStep src' dst' s)) := by rw [e]
    exact ⟨congrArg (finish s) (moveStep_dest_apt_off hoff .pt).symm,
      congrArg (finish s) ((moveStep_dest_apt_off hoff .pt).trans (moveStep_source_apt_off hoff .pt).symm),
      congrArg (finish s) (moveStep_dest_apt_off hoff .apt).symm,
      privilegedStep (moveStep_source_apt_off hoff .phys).symm,
      privilegedStep (moveStep_dest_apt_off hoff .phys).symm⟩

end Sys2Proof.Machine

namespace Sys2Proof.Machine

open Sys2Proof Sys2Proof.Config

/-! # Decimal fields: digits, nibbles, signs -/

/-! ## Digits -/

theorem digitsValue_append_singleton (ds : List Nat) (d : Nat) :
    digitsValue (ds ++ [d]) = 10 * digitsValue ds + d := by
  simp [digitsValue]

@[simp] theorem toDigits_length (n v : Nat) : (toDigits n v).length = n := by
  induction n generalizing v with
  | zero => rfl
  | succ n ih => simp [toDigits, ih]

theorem toDigits_lt {n v : Nat} : ∀ d ∈ toDigits n v, d < 10 := by
  induction n generalizing v with
  | zero => simp [toDigits]
  | succ n ih =>
    intro d hd
    rcases List.mem_append.1 hd with hd | hd
    · exact ih d hd
    · rw [List.mem_singleton.1 hd]
      exact Nat.mod_lt _ (by decide)

/-- The last `n` digits of a number are the number modulo 10^n. -/
theorem digitsValue_toDigits (n v : Nat) : digitsValue (toDigits n v) = v % 10 ^ n := by
  induction n generalizing v with
  | zero => simp [toDigits, digitsValue, Nat.mod_one]
  | succ n ih =>
    rw [toDigits, digitsValue_append_singleton, ih, pow_succ', Nat.mod_mul, Nat.add_comm]

/-! ## Nibbles (R431) -/

theorem byteNibbles_append (h l : BitVec 4) : byteNibbles (h ++ l) = [h, l] := by
  have high : (h ++ l).extractLsb' 4 4 = h := by ext i hi; grind
  have low : (h ++ l).extractLsb' 0 4 = l := by ext i hi; grind
  rw [byteNibbles, high, low]

/-- An even number of nibbles is read back from its bytes. -/
theorem flatMap_nibbleBytes {ns : List (BitVec 4)} (h : ns.length % 2 = 0) :
    (nibbleBytes ns).flatMap byteNibbles = ns := by
  induction ns using nibbleBytes.induct with
  | case1 a b rest ih =>
    rw [nibbleBytes, List.flatMap_cons, byteNibbles_append, ih (by simp only [List.length_cons] at h; omega)]
    rfl
  | case2 ns hns =>
    match ns, hns, h with
    | [], _, _ => rfl
    | [a], _, h => cases h
    | a :: b :: rest, hns, _ => exact (hns a b rest rfl).elim

theorem nibbleBytes_length {ns : List (BitVec 4)} (h : ns.length % 2 = 0) :
    (nibbleBytes ns).length = ns.length / 2 := by
  have twice : ((nibbleBytes ns).flatMap byteNibbles).length = (nibbleBytes ns).length * 2 := by
    simp [List.length_flatMap, byteNibbles]
  rw [flatMap_nibbleBytes h] at twice
  omega

/-- The bytes of a field of `n` nibbles: an odd field has one nibble before it. -/
theorem fieldNibbles_nibbleBytes {ns : List (BitVec 4)} {n : Nat} (h : ns.length = n + n % 2) :
    (nibbleBytes ns).length = bcdBytes n ∧ fieldNibbles n (nibbleBytes ns) = ns.drop (n % 2) := by
  have even : ns.length % 2 = 0 := by omega
  refine ⟨?_, by rw [fieldNibbles, flatMap_nibbleBytes even]⟩
  rw [nibbleBytes_length even, bcdBytes]
  omega

/-! ## The number of a BCD field (R431) -/

theorem parseBcd_cons {d : BitVec 4} {rest : List (BitVec 4)} {v : Decimal} (hd : d.toNat < 10) (hne : rest ≠ [])
    (h : parseBcd rest = .ok v) : parseBcd (d :: rest) = .ok { v with digits := d.toNat :: v.digits } := by
  rw [parseBcd, if_neg (by omega), h]
  exact hne

/-- Digits and a sign are a number. -/
theorem parseBcd_digits {ds : List Nat} (h : ∀ d ∈ ds, d < 10) {sg : BitVec 4} (hs : 10 ≤ sg.toNat) :
    parseBcd (ds.map (BitVec.ofNat 4) ++ [sg]) = .ok ⟨sg = 0o13 || sg = 0o15, ds⟩ := by
  induction ds with
  | nil => exact if_neg (by omega)
  | cons d ds ih =>
    have hd : d < 10 := h d List.mem_cons_self
    have nibble : (BitVec.ofNat 4 d).toNat = d := by simp; omega
    have step := parseBcd_cons (nibble.symm ▸ hd) (by simp) (ih fun e he => h e (List.mem_cons_of_mem d he))
    rw [nibble] at step
    exact step

/-- The sign nibbles of results are signs, and 0o15 is the negative one (R431, R435). -/
theorem signNibble_sign (unsigned neg : Bool) : 10 ≤ (signNibble unsigned neg).toNat ∧
    (decide (signNibble unsigned neg = 0o13) || decide (signNibble unsigned neg = 0o15)) = (neg && !unsigned) := by
  cases unsigned <;> cases neg <;> decide

/-- The number in a field, as its nibbles read. -/
theorem State.bcdAt_of_parse {s : State} {o : DecimalOp} {v : Decimal}
    (h : parseBcd (fieldNibbles o.len (s.bytesAt (bcdBytes o.len) o.pos)) = .ok v) : s.bcdAt o = .ok v := by
  rw [State.bcdAt, DecimalOp.bcd, h]

/-- An empty field is a positive zero (R431). -/
theorem State.bcdAt_empty (s : State) {o : DecimalOp} (h : o.len = 0) : s.bcdAt o = .ok ⟨false, []⟩ := by
  refine State.bcdAt_of_parse ?_
  rw [h]
  rfl

@[simp] theorem State.bytesAt_setCur (s : State) (r : RegSet) (n : Nat) (p : BytePos) :
    (s.setCur r).bytesAt n p = s.bytesAt n p :=
  State.bytesAt_congr fun c _ => s.byteOf_setCur r c

theorem State.bcdAt_congr {s t : State} {o : DecimalOp}
    (h : t.bytesAt (bcdBytes o.len) o.pos = s.bytesAt (bcdBytes o.len) o.pos) : t.bcdAt o = s.bcdAt o := by
  rw [State.bcdAt, State.bcdAt, h]

@[simp] theorem State.bcdAt_setCur (s : State) (r : RegSet) (o : DecimalOp) : (s.setCur r).bcdAt o = s.bcdAt o :=
  State.bcdAt_congr (s.bytesAt_setCur ..)

/-! ## ASCII fields (R430, R432) -/

/-- The assigned ASCII sign codes are 0 to 4 (R430). -/
theorem asciiRoles_isSome {code : BitVec 3} (h : code.toNat ≤ 4) (n : Nat) :
    ∃ roles, asciiRoles code n = some roles := by
  have assigned : ∀ c : BitVec 3, c.toNat ≤ 4 → c = 0 ∨ c = 1 ∨ c = 2 ∨ c = 3 ∨ c = 4 := by decide
  rcases assigned code h with rfl | rfl | rfl | rfl | rfl <;> exact ⟨_, rfl⟩

theorem asciiRoles_length {code : BitVec 3} {n : Nat} {roles : List AsciiRole} (h : asciiRoles code n = some roles) :
    roles.length = n := by
  unfold asciiRoles at h
  split at h <;> cases h <;> simp <;> omega

theorem digitOf_asciiDigit : ∀ d < 10, digitOf (asciiDigit d) = some d := by decide

theorem signOf_signByte (neg : Bool) : signOf (signByte neg) = some neg := by cases neg <;> rfl

theorem embeddedOf_embeddedDigit (neg : Bool) : ∀ d < 10, embeddedOf (embeddedDigit neg d) = some (neg, d) := by
  cases neg <;> decide

section

variable {b : Byte} {d : Nat} {neg : Bool} {roles : List AsciiRole} {bs : List Byte} {v : Decimal}
  (h : parseAscii roles bs = .ok v)
include h

theorem parseAscii_digit (hb : digitOf b = some d) :
    parseAscii (.digit :: roles) (b :: bs) = .ok ⟨v.neg, d :: v.digits⟩ := by
  simp [parseAscii, hb, h]

theorem parseAscii_sign (hb : signOf b = some neg) :
    parseAscii (.sign :: roles) (b :: bs) = .ok ⟨neg || v.neg, v.digits⟩ := by
  simp [parseAscii, hb, h]

theorem parseAscii_embedded (hb : embeddedOf b = some (neg, d)) :
    parseAscii (.embedded :: roles) (b :: bs) = .ok ⟨neg || v.neg, d :: v.digits⟩ := by
  simp [parseAscii, hb, h]

end

theorem asciiBytes_length (neg : Bool) (roles : List AsciiRole) (ds : List Nat) :
    (asciiBytes neg roles ds).length = roles.length := by
  induction roles generalizing ds with
  | nil => rfl
  | cons role roles ih => cases role <;> simp [asciiBytes, ih]

/-- An ASCII field is read back: its digits, and its sign where a byte holds one (R432, R439). -/
theorem parseAscii_asciiBytes (neg : Bool) {roles : List AsciiRole} {ds : List Nat}
    (hlen : ds.length = digitRoles roles) (hd : ∀ d ∈ ds, d < 10) :
    parseAscii roles (asciiBytes neg roles ds) = .ok ⟨neg && roles.any (· ≠ .digit), ds⟩ := by
  induction roles generalizing ds with
  | nil =>
    obtain rfl := List.eq_nil_of_length_eq_zero hlen
    rw [List.any_nil, Bool.and_false]
    rfl
  | cons role roles ih =>
    cases role with
    | sign => exact (parseAscii_sign (ih hlen hd) (signOf_signByte neg)).trans (by cases neg <;> simp)
    | digit =>
      obtain ⟨d, ds, rfl⟩ := List.exists_cons_of_length_eq_add_one hlen
      obtain ⟨hd, hds⟩ := List.forall_mem_cons.1 hd
      exact (parseAscii_digit (ih (Nat.succ.inj hlen) hds) (digitOf_asciiDigit d hd)).trans (by simp)
    | embedded =>
      obtain ⟨d, ds, rfl⟩ := List.exists_cons_of_length_eq_add_one hlen
      obtain ⟨hd, hds⟩ := List.forall_mem_cons.1 hd
      exact (parseAscii_embedded (ih (Nat.succ.inj hlen) hds) (embeddedOf_embeddedDigit neg d hd)).trans
        (by cases neg <;> simp)

/-! ## Fields written with memory management off -/

/-- Operands of the decimal instructions have five bits of length (R430). -/
theorem decimalOp_len_lt (d1 d2 : Word) : (decimalOp d1 d2).len < 32 := BitVec.isLt _

/-- A field written holds the nibbles written, and nothing but its bytes changes. -/
theorem writeNibbles_flat {s : State} (hflat : s.Flat) {o : DecimalOp} (ho : o.len < 32) {ns : List (BitVec 4)}
    (hn : ns.length = o.len) :
    ∃ t, writeNibbles o ns s = .ok () t ∧ SameMachine s t ∧ SameBytesBut o.cells s t ∧
      fieldNibbles o.len (t.bytesAt (bcdBytes o.len) o.pos) = ns := by
  have write (ns' : List (BitVec 4)) (h : ns'.length = o.len + o.len % 2) :
      ∃ t, writeBytes o.pos (nibbleBytes ns') s = .ok () t ∧ SameMachine s t ∧ SameBytesBut o.cells s t ∧
        fieldNibbles o.len (t.bytesAt (bcdBytes o.len) o.pos) = ns'.drop (o.len % 2) := by
    obtain ⟨len, field⟩ := fieldNibbles_nibbleBytes h
    have small : bcdBytes o.len ≤ 131072 := by rw [bcdBytes]; omega
    obtain ⟨t, hw, hstores, hbytes, frame⟩ := writeBytes_flat hflat o.pos (nibbleBytes ns') (by rwa [len])
    rw [len] at hbytes frame
    exact ⟨t, hw, sameMachine_of_stores hstores, frame, by rw [hbytes, field]⟩
  unfold writeNibbles
  by_cases odd : o.len % 2 = 1
  · obtain ⟨t, hw, same, frame, field⟩ := write ((s.byteOf (flatCell o.pos)).extractLsb' 4 4 :: ns) (by simp; omega)
    rw [odd, List.drop_one, List.tail_cons] at field
    exact ⟨t, by rw [if_pos odd, readByte_flat hflat, Res.bind_ok, hw]; rfl, same, frame, field⟩
  · obtain ⟨t, hw, same, frame, field⟩ := write ns (by omega)
    rw [show o.len % 2 = 0 by omega, List.drop_zero] at field
    exact ⟨t, by rw [if_neg odd, hw]; rfl, same, frame, field⟩

/-- A number written into a field that is not empty: its low-order digits and its sign stand there. -/
theorem writeBcd_flat {s : State} (hflat : s.Flat) {o : DecimalOp} (ho : o.len < 32) (hpos : o.len ≠ 0) (m : Nat)
    (unsigned neg : Bool) :
    ∃ t, writeBcd o m (signNibble unsigned neg) s = .ok () t ∧ SameMachine s t ∧ SameBytesBut o.cells s t ∧
      t.bcdAt o = .ok ⟨neg && !unsigned, toDigits (o.len - 1) m⟩ := by
  obtain ⟨t, hw, same, frame, field⟩ := writeNibbles_flat hflat ho
    (ns := (toDigits (o.len - 1) m).map (BitVec.ofNat 4) ++ [signNibble unsigned neg]) (by simp; omega)
  obtain ⟨sign, negative⟩ := signNibble_sign unsigned neg
  refine ⟨t, hw, same, frame, State.bcdAt_of_parse ?_⟩
  rw [field, parseBcd_digits toDigits_lt sign, negative]

theorem State.sameMachine_drawn (s : State) (n : Nat) : SameMachine s (s.drawn n) :=
  ⟨rfl, rfl, rfl, rfl, rfl, rfl, rfl, rfl, rfl, rfl, rfl, rfl, rfl, rfl, rfl, rfl⟩

/-- An overflowed field: nothing but its bytes changes. -/
theorem writeOpenField_flat {s : State} (hflat : s.Flat) {o : DecimalOp} (ho : o.len < 32) :
    ∃ t, writeOpenField o s = .ok () t ∧ SameMachine s t ∧ SameBytesBut o.cells s t := by
  have hflat' : (s.drawn o.len).Flat := (State.flat_drawn s o.len).2 hflat
  obtain ⟨t, hw, same, frame, -⟩ := writeNibbles_flat hflat' ho
    (ns := (List.range o.len).map fun i => (s.anyWord i).extractLsb' 0 4) (by simp)
  exact ⟨t, hw, (s.sameMachine_drawn _).trans same, frame⟩

/-! ## Ends (R433, R434) -/

section

variable {s t : State} (same : SameMachine s t)
include same

theorem finish_decimalDone : finish s (.ok () t.decimalDone) = .next t.decimalDone :=
  finish_ok_cur (r := t.cur.skip) (by rw [RegSet.skip_sts, same.cur])

theorem finish_decimalOverflow : finish s (.ok () t.decimalOverflow) = .next t.decimalOverflow :=
  finish_ok_cur (r := (t.cur.decimalError 3).advance) (by rw [RegSet.advance_sts, same.cur]; rfl)

variable {cells : List (Store × Nat)} (frame : SameBytesBut cells s t)
include frame

theorem decimalOk_decimalDone : DecimalOk cells s t.decimalDone where
  cur := (State.setCur_cur _ _).trans (by rw [same.cur]; rfl)
  others := same.sameOtherLevels_setCur _
  system := same.sameSystem_setCur _
  bytes := frame.setCur _

theorem decimalError_decimalOverflow : DecimalError 3 cells s t.decimalOverflow where
  cur := (State.setCur_cur _ _).trans (by rw [same.cur]; rfl)
  others := same.sameOtherLevels_setCur _
  system := same.sameSystem_setCur _
  bytes := frame.setCur _

end

end Sys2Proof.Machine

namespace Sys2Proof.Machine

open Sys2Proof Sys2Proof.Config

/-! # Decimal instructions -/

/-! ## Operands read and checked (R433, R434) -/

theorem bcd_bytesAt (s : State) (o : DecimalOp) : o.bcd (s.bytesAt (bcdBytes o.len) o.pos) = s.bcdAt o := rfl

theorem readBcd_flat {s : State} (hflat : s.Flat) (o : DecimalOp) :
    readBcd o s = .ok (s.bytesAt (bcdBytes o.len) o.pos) s := readBytes_flat hflat _ _

section

variable {s : State} (hflat : s.Flat) {v v1 v2 : Decimal} {p : BytePos} {f : Decimal → Decimal → State → Res Unit}
include hflat

theorem withOperands_ok (h1 : s.bcdAt s.cur.op1 = .ok v1) (h2 : s.bcdAt s.cur.op2 = .ok v2) :
    withOperands s f = f v1 v2 s := by
  simp only [withOperands, readBcd_flat hflat, Res.bind_ok, bcd_bytesAt, h1, h2]

/-- Op1 is looked at first (R434). -/
theorem withOperands_illegal_op1 (h1 : s.bcdAt s.cur.op1 = .error p) :
    withOperands s f = .ok () (s.illegalOp1 p) := by
  simp only [withOperands, readBcd_flat hflat, Res.bind_ok, bcd_bytesAt, h1]

theorem withOperands_illegal_op2 (h1 : s.bcdAt s.cur.op1 = .ok v1) (h2 : s.bcdAt s.cur.op2 = .error p) :
    withOperands s f = .ok () s.illegalOp2 := by
  simp only [withOperands, readBcd_flat hflat, Res.bind_ok, bcd_bytesAt, h1, h2]

theorem exec_shde_ok (h : s.bcdAt s.cur.op1 = .ok v) : exec .shde s = finish s (storeShifted v s) := by
  show execShde s = _
  simp only [execShde, readBcd_flat hflat, Res.bind_ok, bcd_bytesAt, h]

theorem exec_shde_illegal (h : s.bcdAt s.cur.op1 = .error p) :
    exec .shde s = finish s (.ok () (s.illegalOp1 p)) := by
  show execShde s = _
  simp only [execShde, readBcd_flat hflat, Res.bind_ok, bcd_bytesAt, h]

section

variable {roles : List AsciiRole}

theorem exec_upack_ok (hr : asciiRoles s.cur.op2.asciiCode s.cur.op2.len = some roles)
    (h : s.bcdAt s.cur.op1 = .ok v) : exec .upack s = finish s (storeUnpacked roles v s) := by
  show execUpack s = _
  simp only [execUpack, hr, readBcd_flat hflat, Res.bind_ok, bcd_bytesAt, h]

theorem exec_upack_illegal (hr : asciiRoles s.cur.op2.asciiCode s.cur.op2.len = some roles)
    (h : s.bcdAt s.cur.op1 = .error p) : exec .upack s = finish s (.ok () (s.illegalOp1 p)) := by
  show execUpack s = _
  simp only [execUpack, hr, readBcd_flat hflat, Res.bind_ok, bcd_bytesAt, h]

variable (hr : asciiRoles s.cur.op1.asciiCode s.cur.op1.len = some roles)
include hr

theorem exec_pack_ok (h : parseAscii roles (s.bytesAt s.cur.op1.len s.cur.op1.pos) = .ok v) :
    exec .pack s = finish s (storePacked v s) := by
  show execPack s = _
  simp only [execPack, hr, readBytes_flat hflat, Res.bind_ok, h]

theorem exec_pack_illegal {k : Nat} (h : parseAscii roles (s.bytesAt s.cur.op1.len s.cur.op1.pos) = .error k) :
    exec .pack s = finish s (.ok () (s.illegalOp1 (BytePos.advance k s.cur.op1.pos))) := by
  show execPack s = _
  simp only [execPack, hr, readBytes_flat hflat, Res.bind_ok, h]

end

end

/-! ## Illegal codes -/

/-- Code 2 in D[4:0]. -/
theorem decimalError_illegal (r : RegSet) : r.decimalError 2 = { r with d := r.d &&& 0o177740 ||| 2 } := by
  have word : r.d.extractLsb' 5 11 ++ (2 : BitVec 5) = r.d &&& 0o177740 ||| 2 := by
    ext i hi
    rw [BitVec.getElem_append]
    interval_cases i <;> simp
  rw [RegSet.decimalError, word]

/-- The position of an illegal code in op1 stands in A and D[15]. -/
theorem finish_illegalOp1 (s : State) (p : BytePos) : finish s (.ok () (s.illegalOp1 p)) =
    .next (s.setCur { s.cur with
      a := p.addr, d := (if p.half = true then s.cur.d ||| 0o100000 else s.cur.d &&& 0o77777) &&& 0o177740 ||| 2,
      p := s.cur.p + 1 }) := by
  rw [State.illegalOp1, decimalError_illegal]
  exact finish_ok_cur rfl

theorem finish_illegalOp2 (s : State) : finish s (.ok () s.illegalOp2) =
    .next (s.setCur { s.cur with d := s.cur.d &&& 0o177740 ||| 2, p := s.cur.p + 1 }) := by
  rw [State.illegalOp2, decimalError_illegal]
  exact finish_ok_cur rfl

/-- Settles O44: an illegal code of op1, and of op2 where op1 is legal. -/
theorem decimalIllegalCode : Obligations.DecimalIllegalCode := by
  unfold Obligations.DecimalIllegalCode
  refine fun s hflat => ⟨fun p h => ?op1, fun p v h1 h2 => ?op2⟩
  case op1 =>
    have both {f : Decimal → Decimal → State → Res Unit} :
        finish s (withOperands s f) = finish s (.ok () (s.illegalOp1 p)) :=
      congrArg (finish s) (withOperands_illegal_op1 hflat h)
    have done := finish_illegalOp1 s p
    refine ⟨both.trans done, both.trans done, both.trans done, (exec_shde_illegal hflat h).trans done, fun hcode => ?_⟩
    obtain ⟨roles, hr⟩ := asciiRoles_isSome hcode s.cur.op2.len
    exact (exec_upack_illegal hflat hr h).trans done
  case op2 =>
    have both {f : Decimal → Decimal → State → Res Unit} :
        finish s (withOperands s f) = finish s (.ok () s.illegalOp2) :=
      congrArg (finish s) (withOperands_illegal_op2 hflat h1 h2)
    have done := finish_illegalOp2 s
    exact ⟨both.trans done, both.trans done, both.trans done⟩

/-! ## Results that fit and results that do not -/

/-- How ADDD, SUBD and SHDE store a magnitude `m`: an empty field holds 0 alone; `j` open values are drawn before the
field is written (R435, R440). -/
def storeMagnitude (o : DecimalOp) (m : Nat) (neg : Bool) (j : Nat) (s : State) : Res Unit :=
  if o.len = 0 then .ok () (if m = 0 then s.decimalDone else s.decimalOverflow)
  else if 10 ^ (o.len - 1) ≤ m then (writeOpenField o s).bind fun _ u => .ok () u.decimalOverflow
  else (writeBcd o m (signNibble o.unsigned neg) (s.drawn j)).bind fun _ u => .ok () u.decimalDone

theorem storeSum_eq (r : Int) (s : State) :
    storeSum r s = storeMagnitude s.cur.op1 r.natAbs (if r = 0 then (s.anyWord 0).getLsbD 0 else r < 0) 1 s := by
  simp only [storeSum, storeMagnitude, Int.natAbs_eq_zero]

theorem storeShifted_eq (v : Decimal) (s : State) : storeShifted v s = storeMagnitude s.cur.op2
    (shiftedMagnitude (digitsValue v.digits) ((s.cur.op2.point : Int) - s.cur.op1.point) s.cur.op2.rounding)
    v.neg 0 s := rfl

section

variable {s : State} (hflat : s.Flat) {o : DecimalOp} (ho : o.len < 32) {m : Nat}
include hflat ho

/-- A magnitude that does not fit: any value stands in a field that is not empty (R435). -/
theorem finish_storeMagnitude_large (hm : 10 ^ (o.len - 1) ≤ m) (neg : Bool) (j : Nat) :
    ∃ t, finish s (storeMagnitude o m neg j s) = .next t ∧ DecimalError 3 o.cells s t := by
  have hm0 : m ≠ 0 := (lt_of_lt_of_le (Nat.pow_pos (by decide)) hm).ne'
  unfold storeMagnitude
  by_cases h : o.len = 0
  · rw [if_pos h, if_neg hm0]
    exact ⟨_, finish_decimalOverflow (.refl s), decimalError_decimalOverflow (.refl s) fun _ _ => rfl⟩
  · obtain ⟨t, hw, same, frame⟩ := writeOpenField_flat hflat ho
    rw [if_neg h, if_pos hm, finish_bind_ok hw]
    exact ⟨_, finish_decimalOverflow same, decimalError_decimalOverflow same frame⟩

/-- A magnitude that fits stands in the field with its sign. -/
theorem finish_storeMagnitude_fits (hm : m < 10 ^ (o.len - 1)) (neg : Bool) (j : Nat) :
    ∃ t d, finish s (storeMagnitude o m neg j s) = .next t ∧ DecimalOk o.cells s t ∧ t.bcdAt o = .ok d ∧
      digitsValue d.digits = m ∧ (o.len ≠ 0 → d.neg = (neg && !o.unsigned)) := by
  unfold storeMagnitude
  by_cases h : o.len = 0
  · have zero : m = 0 := by simpa [h] using hm
    rw [if_pos h, if_pos zero]
    exact ⟨_, _, finish_decimalDone (.refl s), decimalOk_decimalDone (.refl s) fun _ _ => rfl,
      State.bcdAt_empty _ h, zero.symm, fun hne => absurd h hne⟩
  · obtain ⟨t, hw, same, frame, field⟩ := writeBcd_flat ((State.flat_drawn s j).2 hflat) ho h m o.unsigned neg
    have same := (s.sameMachine_drawn j).trans same
    rw [if_neg h, if_neg (not_le.2 hm), finish_bind_ok hw]
    exact ⟨_, _, finish_decimalDone same, decimalOk_decimalDone same frame, (State.bcdAt_setCur ..).trans field,
      (digitsValue_toDigits ..).trans (Nat.mod_eq_of_lt hm), fun _ => rfl⟩

end

/-! ## Sums and comparisons -/

/-- The value of the digits of `r` with its sign, or without where the field is unsigned; a zero may have either. -/
theorem Decimal.value_of_sum {d : Decimal} {r : Int} {unsigned : Bool} (digits : digitsValue d.digits = r.natAbs)
    (sign : r ≠ 0 → d.neg = (decide (r < 0) && !unsigned)) :
    d.value = if unsigned = true then (r.natAbs : Int) else r := by
  unfold Decimal.value
  rw [digits]
  by_cases h : r = 0
  · simp [h]
  · rw [sign h]
    cases unsigned
    · simp only [Bool.not_false, Bool.and_true, decide_eq_true_eq, Bool.false_eq_true, if_false]
      split <;> omega
    · simp

/-- A sum stored into op1's field, or overflow (R435, R436). -/
theorem finish_storeSum {s : State} (hflat : s.Flat) (r : Int) :
    (r.natAbs < 10 ^ (s.cur.op1.len - 1) → ∃ t d, finish s (storeSum r s) = .next t ∧ DecimalOk s.cur.op1.cells s t ∧
      t.bcdAt s.cur.op1 = .ok d ∧
      d.value = if s.cur.op1.d2.getLsbD 13 = true then (r.natAbs : Int) else r) ∧
    (10 ^ (s.cur.op1.len - 1) ≤ r.natAbs → ∃ t, finish s (storeSum r s) = .next t ∧
      DecimalError 3 s.cur.op1.cells s t) := by
  have ho : s.cur.op1.len < 32 := decimalOp_len_lt ..
  rw [storeSum_eq]
  refine ⟨fun fits => ?_, fun large => finish_storeMagnitude_large hflat ho large _ _⟩
  obtain ⟨t, d, done, ok, field, digits, sign⟩ := finish_storeMagnitude_fits hflat ho fits
    (if r = 0 then (s.anyWord 0).getLsbD 0 else r < 0) 1
  refine ⟨t, d, done, ok, field, Decimal.value_of_sum digits fun hr => ?_⟩
  have hne : s.cur.op1.len ≠ 0 := fun h => hr (by simpa [h] using fits)
  rw [sign hne, if_neg hr]
  rfl

theorem compareResult_sub (x y : Int) :
    compareResult (x - y) = if x = y then 0 else if y < x then 1 else 0o177777 := by
  simp only [compareResult, sub_eq_zero, sub_pos]

/-- Settles O43: both operands are legal, and the sum fits into op1's field or not. -/
theorem decimalSum : Obligations.DecimalSum := by
  unfold Obligations.DecimalSum
  intro s v1 v2 hflat h1 h2 o stores
  have operands {f : Decimal → Decimal → State → Res Unit} :
      finish s (withOperands s f) = finish s (f v1 v2 s) := congrArg (finish s) (withOperands_ok hflat h1 h2)
  have sum {i : Instr} {r : Int} (h : exec i s = finish s (storeSum r s)) : stores i r := by
    show (_ → ∃ t d, exec i s = .next t ∧ _) ∧ (_ → ∃ t, exec i s = .next t ∧ _)
    rw [h]
    exact finish_storeSum hflat r
  refine ⟨sum operands, sum operands, ?_⟩
  rw [← compareResult_sub]
  exact operands.trans (finish_ok_cur rfl)

/-! ## SHDE -/

theorem shiftedMagnitude_eq (n : Nat) (k : Int) (rounding : Bool) : shiftedMagnitude n k rounding =
    if k ≤ 0 then n * 10 ^ (-k).toNat
    else n / 10 ^ k.toNat + if rounding = true ∧ 5 ≤ n / 10 ^ (k.toNat - 1) % 10 then 1 else 0 := by
  unfold shiftedMagnitude
  by_cases h : 0 < k
  · rw [if_pos h, if_neg (not_le.2 h)]
    simp only [Bool.and_eq_true, decide_eq_true_eq]
  · rw [if_neg h, if_pos (not_lt.1 h)]

/-- Settles O45: the shifted magnitude fits into op2's field or not. -/
theorem decimalShift : Obligations.DecimalShift := by
  unfold Obligations.DecimalShift
  intro s v hflat h o k n m
  have ho : o.len < 32 := decimalOp_len_lt ..
  have magnitude : shiftedMagnitude (digitsValue v.digits) ((o.point : Int) - s.cur.op1.point) o.rounding = m :=
    shiftedMagnitude_eq ..
  rw [exec_shde_ok hflat h, storeShifted_eq, magnitude]
  exact ⟨fun fits => finish_storeMagnitude_fits hflat ho fits _ _,
    fun large => finish_storeMagnitude_large hflat ho large _ _⟩

/-! ## PACK and UPACK -/

theorem State.packEnd_bytesAt (t : State) (n : Nat) (ds : List Nat) (k : Nat) (p : BytePos) :
    (t.packEnd n ds).bytesAt k p = t.bytesAt k p := by
  unfold State.packEnd
  split <;> exact State.bytesAt_setCur ..

section

variable {s t : State} (same : SameMachine s t) (n : Nat) (ds : List Nat)
include same

theorem finish_packEnd : finish s (.ok () (t.packEnd n ds)) = .next (t.packEnd n ds) := by
  unfold State.packEnd
  split
  · exact finish_decimalOverflow same
  · exact finish_decimalDone same

/-- The error return is taken if a significant digit was lost (R438, R439). -/
theorem packEnd_ends {cells : List (Store × Nat)} (frame : SameBytesBut cells s t) :
    (digitsValue ds < 10 ^ n → DecimalOk cells s (t.packEnd n ds)) ∧
      (10 ^ n ≤ digitsValue ds → DecimalError 3 cells s (t.packEnd n ds)) := by
  unfold State.packEnd
  refine ⟨fun h => ?_, fun h => ?_⟩
  · rw [if_neg (not_le.2 h)]
    exact decimalOk_decimalDone same frame
  · rw [if_pos h]
    exact decimalError_decimalOverflow same frame

end

/-- PACK's result in op2's field: the low-order digits; none in an empty field (R438). -/
theorem finish_storePacked {s : State} (hflat : s.Flat) (v : Decimal) :
    ∃ t d, finish s (storePacked v s) = .next t ∧ t.bcdAt s.cur.op2 = .ok d ∧
      digitsValue d.digits = digitsValue v.digits % 10 ^ (s.cur.op2.len - 1) ∧
      (s.cur.op2.len ≠ 0 → d.neg = (v.neg && !(s.cur.op2.unsigned || s.cur.op1.unsigned))) ∧
      (digitsValue v.digits < 10 ^ (s.cur.op2.len - 1) → DecimalOk s.cur.op2.cells s t) ∧
      (10 ^ (s.cur.op2.len - 1) ≤ digitsValue v.digits → DecimalError 3 s.cur.op2.cells s t) := by
  have ho : s.cur.op2.len < 32 := decimalOp_len_lt ..
  unfold storePacked
  by_cases h : s.cur.op2.len = 0
  · have none : s.cur.op2.len - 1 = 0 := by rw [h]
    dsimp only
    rw [if_pos h, none]
    exact ⟨_, _, finish_packEnd (.refl s) _ _, State.bcdAt_empty _ h, (Nat.mod_one _).symm, fun hne => absurd h hne,
      packEnd_ends (.refl s) _ _ fun _ _ => rfl⟩
  · obtain ⟨t, hw, same, frame, field⟩ := writeBcd_flat hflat ho h (digitsValue v.digits)
      (s.cur.op2.unsigned || s.cur.op1.unsigned) v.neg
    dsimp only
    rw [if_neg h, finish_bind_ok hw]
    exact ⟨_, _, finish_packEnd same _ _, (State.bcdAt_congr (t.packEnd_bytesAt ..)).trans field,
      digitsValue_toDigits .., fun _ => rfl, packEnd_ends same _ _ frame⟩

/-- UPACK's result in op2's field: as many low-order digits as it holds (R439). -/
theorem finish_storeUnpacked {s : State} (hflat : s.Flat) {roles : List AsciiRole}
    (hr : asciiRoles s.cur.op2.asciiCode s.cur.op2.len = some roles) (v : Decimal) :
    ∃ t, finish s (storeUnpacked roles v s) = .next t ∧
      parseAscii roles (t.bytesAt s.cur.op2.len s.cur.op2.pos) =
        .ok ⟨v.neg && roles.any (· ≠ .digit), lowDigits (digitRoles roles) v.digits⟩ ∧
      (digitsValue v.digits < 10 ^ digitRoles roles → DecimalOk (fieldCells s.cur.op2.len s.cur.op2.pos) s t) ∧
      (10 ^ digitRoles roles ≤ digitsValue v.digits →
        DecimalError 3 (fieldCells s.cur.op2.len s.cur.op2.pos) s t) := by
  have ho : s.cur.op2.len < 32 := decimalOp_len_lt ..
  have len : (asciiBytes v.neg roles (lowDigits (digitRoles roles) v.digits)).length = s.cur.op2.len := by
    rw [asciiBytes_length, asciiRoles_length hr]
  obtain ⟨t, hw, hstores, hbytes, frame⟩ := writeBytes_flat hflat s.cur.op2.pos
    (asciiBytes v.neg roles (lowDigits (digitRoles roles) v.digits)) (by omega)
  rw [len] at hbytes frame
  have same := sameMachine_of_stores hstores
  have written : resultWrite (writeBytes s.cur.op2.pos
      (asciiBytes v.neg roles (lowDigits (digitRoles roles) v.digits)) s) = .ok () t := by
    rw [hw]
    rfl
  refine ⟨_, (finish_bind_ok written _).trans (finish_packEnd same _ _), ?_, packEnd_ends same _ _ frame⟩
  rw [State.packEnd_bytesAt, hbytes]
  exact parseAscii_asciiBytes _ (toDigits_length ..) toDigits_lt

/-- Settles O46: op1's number in the other code, and an illegal ASCII byte. -/
theorem decimalConvert : Obligations.DecimalConvert := by
  unfold Obligations.DecimalConvert
  refine fun s hflat => ⟨fun roles v hr h => ?pack, fun roles k hr h => ?illegal, fun roles v h hr => ?upack⟩
  case pack =>
    rw [exec_pack_ok hflat hr h]
    exact finish_storePacked hflat v
  case illegal => exact (exec_pack_illegal hflat hr h).trans (finish_illegalOp1 s _)
  case upack =>
    obtain ⟨t, done, field, ends⟩ := finish_storeUnpacked hflat hr v
    refine ⟨t, _, (exec_upack_ok hflat hr h).trans done, field, digitsValue_toDigits .., fun hsign => ?_, ends⟩
    have any : roles.any (· ≠ .digit) = true := by simpa using hsign
    rw [any, Bool.and_true]

end Sys2Proof.Machine

namespace Sys2Proof.Config

open Sys2Proof

/-! # Floating point -/

/-! ## Arithmetic that meets R451 -/

/-- The integer part of a number that is an integer is that integer (R451 (c)). -/
theorem eq_of_integerPart_of_sameNumber {v : Int × Int} {n r : Int} (same : SameNumber v (n, 0))
    (part : IntegerPart v 0 r) : r = n := by
  obtain ⟨m, e⟩ := v
  simp only [SameNumber, IntegerPart, Int.add_zero, Int.zero_sub] at same part
  split at part
  · next he => simpa [min_eq_right he, part] using same
  · next he =>
    have pos : (0 : Int) < 2 ^ (-e).toNat := by positivity
    have lower : min e 0 = e := min_eq_left (not_le.1 he).le
    have number : m = n * 2 ^ (-e).toNat := by simpa [lower] using same
    have near : |r - n| < 1 := by
      have scaled : |r - n| * 2 ^ (-e).toNat < 1 * 2 ^ (-e).toNat := by
        rw [one_mul, ← abs_of_pos pos, ← abs_mul, sub_mul, ← number, abs_of_pos pos]
        exact part.1
      exact lt_of_mul_lt_mul_right scaled pos.le
    exact sub_eq_zero.1 (Int.abs_lt_one_iff.1 near)

section

variable {w : Nat} {o : FpOps w} (h : o.Valid)
include h

/-- The error of DNZ tells exactly whether the integer part is too large, and without it the word is that integer
(R451 (c), (d)). -/
theorem FpOps.Valid.dnz_spec (x : BitVec w) (sf : BitVec 8) (tg : Bool) :
    ∃ r, IntegerPart (o.value x) (-16 - sf.toInt) r ∧ (o.dnz x sf tg).2 = decide (32767 < |r|) ∧
      ((o.dnz x sf tg).2 = false → (o.dnz x sf tg).1.toInt = r) := by
  obtain ⟨r, part, out⟩ := h.dnzInteger x sf tg
  refine ⟨r, part, ?_⟩
  rw [Int.abs_eq_natAbs]
  split at out
  · next fits =>
    rw [out]
    exact ⟨(decide_eq_false (by omega)).symm, fun _ => BitVec.toInt_ofInt_eq_self (by decide) (by omega) (by omega)⟩
  · next large =>
    rw [out]
    exact ⟨(decide_eq_true (by omega)).symm, fun no => by cases no⟩

/-- The round trip of R451: NLZ with +16, then DNZ with -16. -/
theorem FpOps.Valid.dnz_nlz {n : Word} (hn : n ≠ 0o100000) (tg tg' : Bool) :
    o.dnz (o.nlz n 16 tg) (-16) tg' = (n, false) := by
  obtain ⟨r, part, error, word⟩ := h.dnz_spec (o.nlz n 16 tg) (-16) tg'
  obtain rfl : r = n.toInt := eq_of_integerPart_of_sameNumber (h.nlzValue n 16 tg) part
  have fits : |n.toInt| ≤ 32767 := by
    have low : n.toInt ≠ -32768 := fun e => hn (BitVec.toInt_inj.1 e)
    have := n.le_toInt
    have := n.toInt_lt
    rw [abs_le]
    omega
  have noError : (o.dnz (o.nlz n 16 tg) (-16) tg').2 = false := by
    rw [error]
    exact decide_eq_false (not_lt.2 fits)
  exact Prod.ext (BitVec.toInt_inj.1 (word noError)) noError

end

end Sys2Proof.Config

namespace Sys2Proof.Machine

open Sys2Proof Sys2Proof.Config

/-! ## The accumulator and the error flag -/

/-- An error sets Z, and no other flag changes (R42). -/
theorem RegSet.signalError_eq (r : RegSet) (e : Bool) :
    r.signalError e = { r with sts := if e = true then r.sts ||| 8 else r.sts } := by
  cases e <;> rfl

theorem RegSet.z_signalError (r : RegSet) (e : Bool) : (r.signalError e).z = (r.z || e) := by
  cases e
  · exact (Bool.or_false _).symm
  · exact (getLsbD_setBit ..).trans (Bool.or_true _).symm

/-- The interrupt of the error flag leaves the registers (R712). -/
@[simp] theorem State.raiseErrorFlag_cur (b s : State) : (b.raiseErrorFlag s).cur = s.cur := by
  rcases State.raiseErrorFlag_cases b s with e | e
  · rw [e]
  · rw [e, State.request_cur]

theorem RegSet.floated32_eq (r : RegSet) (out : BitVec 32 × Bool) : r.floated32 out = { r with
    a := out.1.extractLsb' 16 16, d := out.1.extractLsb' 0 16, sts := if out.2 = true then r.sts ||| 8 else r.sts,
    p := r.p + 1 } := by
  rw [RegSet.floated32, RegSet.signalError_eq]
  rfl

theorem RegSet.floated48_eq (r : RegSet) (out : BitVec 48 × Bool) : r.floated48 out = { r with
    t := out.1.extractLsb' 32 16, a := out.1.extractLsb' 16 16, d := out.1.extractLsb' 0 16,
    sts := if out.2 = true then r.sts ||| 8 else r.sts, p := r.p + 1 } := by
  rw [RegSet.floated48, RegSet.signalError_eq]
  rfl

/-! ## FAD, FSB, FMU, FDV (R452 to R456) -/

section

variable {m : AddrMode} {s s1 s2 s3 : State} {ea u v : Word} (he : effAddr m s = .ok ea s1)
  (h1 : memRead ea s1 = .ok u s2) (h2 : memRead (ea + 1) s2 = .ok v s3)
include he h1 h2

theorem onlyMarks_read32 : OnlyMarks s s3 := ((effAddr_ok he).trans (memRead_ok h1)).trans (memRead_ok h2)

theorem onlyMarks_read48 {s4 : State} {w : Word} (h3 : memRead (ea + 2) s3 = .ok w s4) : OnlyMarks s s4 :=
  (onlyMarks_read32 he h1 h2).trans (memRead_ok h3)

/-- Reading the operand leaves the accumulator, so that the operation finds it as it was before. -/
theorem finish_floatWith_fp32 (hf : s.params.fpFormat = .fp32) (f : FloatOp) :
    finish s (floatWith f m s) = .next (s.raiseErrorFlag
      (s3.setCur (s.cur.floated32 (f.op32 (s.cur.a ++ s.cur.d) (u ++ v) s.cur.tg)))) := by
  rw [floatWith, finish_bind_ok he, (effAddr_ok he).params, hf]
  dsimp only
  rw [finish_bind_ok (read32_ok h1 h2), (onlyMarks_read32 he h1 h2).cur, finish_ok]
  rfl

theorem finish_floatWith_fp48 {s4 : State} {w : Word} (hf : s.params.fpFormat = .fp48)
    (h3 : memRead (ea + 2) s3 = .ok w s4) (f : FloatOp) :
    finish s (floatWith f m s) = .next (s.raiseErrorFlag
      (s4.setCur (s.cur.floated48 (f.op48 (s.cur.t ++ s.cur.a ++ s.cur.d) (u ++ v ++ w) s.cur.tg)))) := by
  rw [floatWith, finish_bind_ok he, (effAddr_ok he).params, hf]
  dsimp only
  rw [finish_bind_ok (read48_ok h1 h2 h3), (onlyMarks_read48 he h1 h2 h3).cur, finish_ok]
  rfl

end

/-- Settles O47: the operand read, then one rule for the four operations; zero is a divisor that signals (R451 (a)). -/
theorem floatArithmetic : Obligations.FloatArithmetic := by
  unfold Obligations.FloatArithmetic
  refine ⟨fun m s s1 s2 s3 s4 ea u v w he h1 h2 => ⟨fun hf => ?done32, fun hf h3 => ?done48⟩,
    fun m s s1 s2 s3 s4 ea u v w sf g he h1 h2 => ⟨fun hf hz => ?zero32, fun hf h3 hz => ?zero48⟩⟩
  case done32 =>
    have done := finish_floatWith_fp32 he h1 h2 hf
    simp only [RegSet.floated32_eq] at done
    exact ⟨onlyMarks_read32 he h1 h2, done _, done _, done _, done _⟩
  case done48 =>
    have done := finish_floatWith_fp48 he h1 h2 hf h3
    simp only [RegSet.floated48_eq] at done
    exact ⟨onlyMarks_read48 he h1 h2 h3, done _, done _, done _, done _⟩
  case zero32 =>
    refine ⟨_, finish_floatWith_fp32 he h1 h2 hf _, ?_⟩
    rw [State.raiseErrorFlag_cur, State.setCur_cur, hz]
    exact (RegSet.z_signalError ..).trans (by rw [fp32.valid.divZero, Bool.or_true])
  case zero48 =>
    refine ⟨_, finish_floatWith_fp48 he h1 h2 hf h3 _, ?_⟩
    rw [State.raiseErrorFlag_cur, State.setCur_cur, hz]
    exact (RegSet.z_signalError ..).trans (by rw [fp48.valid.divZero, Bool.or_true])

/-! ## NLZ and DNZ (R457, R458) -/

theorem exec_nlz_fp32 {s : State} (hf : s.params.fpFormat = .fp32) (n : BitVec 8) :
    exec (.nlz n) s = .next (s.setCur (s.cur.setFa32 (fp32.ops.nlz s.cur.a n s.cur.tg)).advance) := by
  show execNlz n s = _
  rw [execNlz, hf]
  exact finish_ok_cur rfl

theorem exec_nlz_fp48 {s : State} (hf : s.params.fpFormat = .fp48) (n : BitVec 8) :
    exec (.nlz n) s = .next (s.setCur (s.cur.setFa48 (fp48.ops.nlz s.cur.a n s.cur.tg)).advance) := by
  show execNlz n s = _
  rw [execNlz, hf]
  exact finish_ok_cur rfl

/-- The registers after DNZ, `out` being the word and the error and `t` what T becomes (R458). -/
def RegSet.denormalized (r : RegSet) (t : Word) (out : Word × Bool) : RegSet :=
  { r with t := t, a := out.1, d := 0, sts := if out.2 = true then r.sts ||| 8 else r.sts, p := r.p + 1 }

/-- A word that fits is A afterwards, with every flag as it was. -/
theorem RegSet.denormalized_fits {out : Word × Bool} {n : Word} (h : out = (n, false)) (r : RegSet) (t : Word) :
    (r.denormalized t out).a = n ∧ (r.denormalized t out).sts = r.sts := by
  subst h
  exact ⟨rfl, rfl⟩

theorem exec_dnz_fp32 {s : State} (hf : s.params.fpFormat = .fp32) (n : BitVec 8) :
    exec (.dnz n) s = .next (s.raiseErrorFlag
      (s.setCur (s.cur.denormalized s.cur.t (fp32.ops.dnz s.cur.fa32 n s.cur.tg)))) := by
  show execDnz n s = _
  rw [execDnz, hf]
  dsimp only
  rw [RegSet.signalError_eq, finish_ok]
  rfl

theorem exec_dnz_fp48 {s : State} (hf : s.params.fpFormat = .fp48) (n : BitVec 8) :
    exec (.dnz n) s = .next (s.raiseErrorFlag
      ((s.drawn 1).setCur (s.cur.denormalized (s.anyWord 0) (fp48.ops.dnz s.cur.fa48 n s.cur.tg)))) := by
  show execDnz n s = _
  rw [execDnz, hf]
  dsimp only
  rw [RegSet.signalError_eq, finish_ok]
  rfl

/-- NLZ with +16, then DNZ with -16, in either format (R451). -/
theorem exec_nlz_dnz {s : State} (hn : s.cur.a ≠ 0o100000) : ∃ t u, exec (.nlz 16) s = .next t ∧
    exec (.dnz (-16)) t = .next u ∧ u.cur.a = s.cur.a ∧ u.cur.sts = s.cur.sts := by
  cases hf : s.params.fpFormat with
  | fp32 =>
    have back : fp32.ops.dnz (s.cur.setFa32 (fp32.ops.nlz s.cur.a 16 s.cur.tg)).fa32 (-16) s.cur.tg =
        (s.cur.a, false) := by rw [RegSet.setFa32_fa32, fp32.valid.dnz_nlz hn]
    refine ⟨_, _, exec_nlz_fp32 hf 16, exec_dnz_fp32 (s := s.setCur _) hf (-16), ?_⟩
    simp only [State.raiseErrorFlag_cur, State.setCur_cur]
    exact RegSet.denormalized_fits back ..
  | fp48 =>
    have back : fp48.ops.dnz (s.cur.setFa48 (fp48.ops.nlz s.cur.a 16 s.cur.tg)).fa48 (-16) s.cur.tg =
        (s.cur.a, false) := by rw [RegSet.setFa48_fa48, fp48.valid.dnz_nlz hn]
    refine ⟨_, _, exec_nlz_fp48 hf 16, exec_dnz_fp48 (s := s.setCur _) hf (-16), ?_⟩
    simp only [State.raiseErrorFlag_cur, State.setCur_cur]
    exact RegSet.denormalized_fits back ..

/-- Settles O48: each conversion in each format by the constraints of R451, and the round trip. -/
theorem floatConversion : Obligations.FloatConversion := by
  unfold Obligations.FloatConversion
  refine fun n s => ⟨fun hf => ⟨?nlz32, ?dnz32⟩, fun hf => ⟨?nlz48, ?dnz48⟩, exec_nlz_dnz⟩
  case nlz32 =>
    have value := fp32.valid.nlzValue s.cur.a n s.cur.tg
    rw [← s.cur.setFa32_fa32 (fp32.ops.nlz s.cur.a n s.cur.tg)] at value
    exact ⟨_, _, exec_nlz_fp32 hf n, value⟩
  case dnz32 =>
    obtain ⟨r, part, error, fits⟩ := fp32.valid.dnz_spec s.cur.fa32 n s.cur.tg
    exact ⟨_, _, r, exec_dnz_fp32 hf n, part, error, fits⟩
  case nlz48 =>
    have value := fp48.valid.nlzValue s.cur.a n s.cur.tg
    rw [← s.cur.setFa48_fa48 (fp48.ops.nlz s.cur.a n s.cur.tg)] at value
    exact ⟨_, _, _, exec_nlz_fp48 hf n, value⟩
  case dnz48 =>
    obtain ⟨r, part, error, fits⟩ := fp48.valid.dnz_spec s.cur.fa48 n s.cur.tg
    exact ⟨_, _, _, r, exec_dnz_fp48 hf n, part, error, fits⟩

end Sys2Proof.Machine

namespace Sys2Proof.Machine

open Sys2Proof Sys2Proof.Config

/-! # Stack -/

/-! ## The words of a new frame (R480) -/

/-- Four words written at consecutive addresses stand there, across the top of the address space too. -/
theorem flatWord_after_four (s : State) (a u v w x : Word) :
    let t := (((s.writePlace u (flatPlace a)).writePlace v (flatPlace (a + 1))).writePlace w
      (flatPlace (a + 2))).writePlace x (flatPlace (a + 3))
    t.flatWord a = u ∧ t.flatWord (a + 1) = v ∧ t.flatWord (a + 2) = w ∧ t.flatWord (a + 3) = x := by
  obtain ⟨word0, word1, word2⟩ := flatWord_after_three s a u v w
  have ne0 : a ≠ a + 3 := by bv_omega
  have ne1 : a + 1 ≠ a + 3 := by bv_omega
  have ne2 : a + 2 ≠ a + 3 := by bv_omega
  intro t
  simp only [t, State.flatWord_writePlace _ x, if_neg ne0, if_neg ne1, if_neg ne2, if_true]
  exact ⟨word0, word1, word2, trivial⟩

theorem memWriteList_four_flat {s : State} (hflat : s.Flat) (a u v w x : Word) :
    memWriteList a [u, v, w, x] s = .ok () ((((s.writePlace u (flatPlace a)).writePlace v
      (flatPlace (a + 1))).writePlace w (flatPlace (a + 2))).writePlace x (flatPlace (a + 3))) := by
  have e2 : a + 1 + 1 = a + 2 := add_one_add_one a
  have e3 : a + 1 + 2 = a + 3 := BitVec.add_assoc a 1 2
  rw [memWriteList_cons_ok (memWrite_flat hflat a u), ← e2, ← e3]
  have flat1 := (State.flat_writePlace s u (flatPlace a)).2 hflat
  have flat2 := (State.flat_writePlace _ v (flatPlace (a + 1))).2 flat1
  have flat3 := (State.flat_writePlace _ w (flatPlace (a + 1 + 1))).2 flat2
  exact memWriteList_three (memWrite_flat flat1 _ _) (memWrite_flat flat2 _ _) (memWrite_flat flat3 _ _)

/-! ## INIT and ENTR (R483, R484) -/

/-- A frame has been entered: its four words stand at `base`, B is above them, P has gone on by `skip`, and all else
is as it was (R480, R483, R484). -/
structure FrameEntered (base stp smax skip : Word) (s t : State) : Prop where
  link : t.flatWord base = s.cur.l + 1
  prevb : t.flatWord (base + 1) = s.cur.b
  stp : t.flatWord (base + 2) = stp
  smax : t.flatWord (base + 3) = smax
  cur : t.cur = { s.cur with b := base + 0o200, p := s.cur.p + skip }
  others : SameOtherLevels s t
  system : SameSystem s t
  bytes : SameBytesBut (cellsOf (flatPlace base) ++ cellsOf (flatPlace (base + 1)) ++ cellsOf (flatPlace (base + 2)) ++
    cellsOf (flatPlace (base + 3))) s t

/-- What INIT and ENTR do when there is room: the words of the frame, then B and P. -/
def enterFrame (base stp smax skip : Word) (s : State) : Res Unit :=
  (memWriteList base (frameWords s.cur stp smax) s).bind fun _ u =>
    .ok () (u.setCur { u.cur with b := base + 0o200, p := u.cur.p + skip })

theorem finish_enterFrame {s : State} (hflat : s.Flat) (base stp smax skip : Word) :
    ∃ t, finish s (enterFrame base stp smax skip s) = .next t ∧ FrameEntered base stp smax skip s t := by
  have hw := memWriteList_four_flat hflat base (s.cur.l + 1) s.cur.b stp smax
  have same := memWriteList_sameMachine hw
  obtain ⟨link, prevb, stp', smax'⟩ := flatWord_after_four s base (s.cur.l + 1) s.cur.b stp smax
  refine ⟨_, (finish_bind_ok hw _).trans
    (finish_setCur same.cur (fun r => { r with b := base + 0o200, p := r.p + skip }) rfl), ?_⟩
  exact {
    link := (State.flatWord_setCur _ _ _).trans link
    prevb := (State.flatWord_setCur _ _ _).trans prevb
    stp := (State.flatWord_setCur _ _ _).trans stp'
    smax := (State.flatWord_setCur _ _ _).trans smax'
    cur := State.setCur_cur _ _
    others := same.sameOtherLevels_setCur _
    system := same.sameSystem_setCur _
    bytes := ((((State.sameBytesBut_writePlace _ _ _).trans (State.sameBytesBut_writePlace _ _ _)).trans
      (State.sameBytesBut_writePlace _ _ _)).trans (State.sameBytesBut_writePlace _ _ _)).setCur _ }

/-- INIT with memory management off, where its reads answer the words after it (R484). -/
theorem exec_init_flat {s : State} (hflat : s.Flat) {demand start size : Word}
    (hd : s.flatWord (s.cur.p + 1) = demand) (hs : s.flatWord (s.cur.p + 2) = start)
    (hz : s.flatWord (s.cur.p + 3) = size) :
    exec .init s = finish s (if start.toNat + size.toNat < (start + 0o200).toNat + demand.toNat then
      .ok () (s.setCur { s.cur with p := s.cur.p + 6 })
      else enterFrame start (start + 0o200 + demand) (start + size) 7 s) := by
  show execInit s = _
  simp only [execInit, memRead_flat hflat, Res.bind_ok, hd, hs, hz, enterFrame]

/-- ENTR with memory management off, where its reads answer the demand and the current frame's STP and SMAX (R483). -/
theorem exec_entr_flat {s : State} (hflat : s.Flat) {demand base smax : Word}
    (hd : s.flatWord (s.cur.p + 1) = demand) (hs : s.flatWord (s.cur.b - 0o176) = base)
    (hm : s.flatWord (s.cur.b - 0o175) = smax) :
    exec .entr s = finish s (if smax.toNat < (base + 0o200).toNat + demand.toNat then
      .ok () (s.setCur { s.cur with p := s.cur.p + 2 })
      else enterFrame base (base + 0o200 + demand) smax 3 s) := by
  show execEntr s = _
  simp only [execEntr, memRead_flat hflat, Res.bind_ok, hd, hs, hm, enterFrame]

/-- ENTR without room: the error return (R483). -/
theorem exec_entr_noRoom {s : State} (hflat : s.Flat) (h : (s.flatWord (s.cur.b - 0o175)).toNat <
    (s.flatWord (s.cur.b - 0o176) + 0o200).toNat + (s.flatWord (s.cur.p + 1)).toNat) :
    exec .entr s = .next (s.setCur { s.cur with p := s.cur.p + 2 }) := by
  rw [exec_entr_flat hflat rfl rfl rfl, if_pos h]
  exact finish_ok_cur rfl

/-- ENTR with room: the frame is at the current frame's STP (R483). -/
theorem exec_entr_room {s : State} (hflat : s.Flat)
    (h : (s.flatWord (s.cur.b - 0o176) + 0o200).toNat + (s.flatWord (s.cur.p + 1)).toNat ≤
      (s.flatWord (s.cur.b - 0o175)).toNat) :
    ∃ t, exec .entr s = .next t ∧ FrameEntered (s.flatWord (s.cur.b - 0o176))
      (s.flatWord (s.cur.b - 0o176) + 0o200 + s.flatWord (s.cur.p + 1)) (s.flatWord (s.cur.b - 0o175)) 3 s t := by
  rw [exec_entr_flat hflat rfl rfl rfl, if_neg (Nat.not_lt.2 h)]
  exact finish_enterFrame hflat _ _ _ _

/-- Settles O49: the comparison decides between the frame and the error return. -/
theorem stackEnter : Obligations.StackEnter := by
  unfold Obligations.StackEnter
  intro s hflat
  refine ⟨⟨fun room => ?initRoom, fun noRoom => ?initError⟩, ⟨fun room => ?entrRoom, exec_entr_noRoom hflat⟩⟩
  case initRoom =>
    rw [exec_init_flat hflat rfl rfl rfl, if_neg (Nat.not_lt.2 room)]
    obtain ⟨t, ht, link, prevb, stp, smax, cur, others, system, bytes⟩ := finish_enterFrame hflat _ _ _ _
    exact ⟨t, ht, link, prevb, stp, smax, cur, others, system, bytes⟩
  case initError =>
    rw [exec_init_flat hflat rfl rfl rfl, if_pos noRoom]
    exact finish_ok_cur rfl
  case entrRoom =>
    obtain ⟨t, ht, link, prevb, stp, smax, cur, others, system, bytes⟩ := exec_entr_room hflat room
    exact ⟨t, ht, link, prevb, stp, smax, cur, others, system, bytes⟩

/-! ## LEAVE and ELEAV (R485, R487) -/

/-- LEAVE where LINK and PREVB can be read. -/
theorem exec_leave {s s1 s2 : State} {link prevb : Word} (hl : memRead (s.cur.b - 0o200) s = .ok link s1)
    (hp : memRead (s.cur.b - 0o177) s1 = .ok prevb s2) :
    exec .leave s = .next (s2.setCur { s.cur with b := prevb, p := link }) := by
  have hp' : memRead (s1.cur.b - 0o177) s1 = .ok prevb s2 := by rw [(memRead_ok hl).cur, hp]
  have marks := (memRead_ok hl).trans (memRead_ok hp)
  exact (finish_bind_ok hl _).trans ((finish_bind_ok hp' _).trans
    (finish_setCur marks.cur (fun r => { r with b := prevb, p := link }) rfl))

/-- ELEAV where its words can be reached: its accesses leave B and A as they were. -/
theorem exec_eleav {s s1 s2 s3 s4 : State} {link prevb : Word} (hl : memRead (s.cur.b - 0o200) s = .ok link s1)
    (hp : memRead (s.cur.b - 0o177) s1 = .ok prevb s2) (he : memWrite (prevb - 0o173) s.cur.a s2 = .ok () s3)
    (hd : memWrite (s.cur.b - 0o200) (link - 1) s3 = .ok () s4) :
    exec .eleav s = .next (s4.setCur { s.cur with b := prevb, p := link - 1 }) := by
  have same1 := (memRead_ok hl).sameMachine
  have same2 := same1.trans (memRead_ok hp).sameMachine
  have same3 := same2.trans (memWrite_sameMachine he)
  have same4 := same3.trans (memWrite_sameMachine hd)
  rw [← same1.cur] at hp
  rw [← same2.cur] at he
  rw [← same3.cur] at hd
  exact (finish_bind_ok hl _).trans ((finish_bind_ok hp _).trans ((finish_bind_ok he _).trans
    ((finish_bind_ok hd _).trans (finish_setCur same4.cur (fun r => { r with b := prevb, p := link - 1 }) rfl))))

/-- LEAVE in the state in which a frame has been entered: it finds the frame at B, and in it L + 1 and the old B. -/
theorem exec_leave_of_frameEntered {s t : State} {base stp smax skip : Word} (h : FrameEntered base stp smax skip s t)
    (hflat : s.Flat) : exec .leave t = .next (t.setCur { s.cur with p := s.cur.l + 1 }) := by
  have hflat' : t.Flat := hflat.congr h.system.poni h.system.params
  have link_at : base + 0o200 - 0o200 = base := BitVec.add_sub_cancel base 0o200
  have prevb_at : base + 0o200 - 0o177 = base + 1 := by bv_omega
  have hl : memRead (t.cur.b - 0o200) t = .ok (s.cur.l + 1) t := by
    rw [memRead_flat hflat', h.cur, link_at, h.link]
  have hp : memRead (t.cur.b - 0o177) t = .ok s.cur.b t := by
    rw [memRead_flat hflat', h.cur, prevb_at, h.prevb]
  rw [exec_leave hl hp, h.cur]

/-- ENTR that went on at its normal return had room. -/
theorem exec_entr_entered {s t : State} (hflat : s.Flat) (ht : exec .entr s = .next t)
    (hp : t.cur.p = s.cur.p + 3) : ∃ base stp smax, FrameEntered base stp smax 3 s t := by
  rcases Nat.lt_or_ge (s.flatWord (s.cur.b - 0o175)).toNat
    ((s.flatWord (s.cur.b - 0o176) + 0o200).toNat + (s.flatWord (s.cur.p + 1)).toNat) with noRoom | room
  · cases (exec_entr_noRoom hflat noRoom).symm.trans ht
    rw [State.setCur_cur] at hp
    bv_omega
  · obtain ⟨t', ht', entered⟩ := exec_entr_room hflat room
    cases ht'.symm.trans ht
    exact ⟨_, _, _, entered⟩

/-- Settles O50: each access leaves the registers that address the next, and LEAVE finds what ENTR wrote. -/
theorem stackLeave : Obligations.StackLeave := by
  unfold Obligations.StackLeave
  refine ⟨fun s s1 s2 s3 s4 link prevb hl hp => ?reached, fun s t hflat ht hp => ?entered⟩
  case reached => exact ⟨(memRead_ok hl).trans (memRead_ok hp), exec_leave hl hp, exec_eleav hl hp⟩
  case entered =>
    obtain ⟨base, stp, smax, entered⟩ := exec_entr_entered hflat ht hp
    refine ⟨_, exec_leave_of_frameEntered entered hflat, State.setCur_cur _ _, fun lv hlv => ?_, { entered.system with }⟩
    rw [State.setCur_level_ne _ _ (entered.system.pil ▸ hlv), entered.others lv hlv]

end Sys2Proof.Machine

namespace Sys2Proof.Machine

open Sys2Proof Sys2Proof.Config

/-! # System control: switches, WAIT, MON -/

/-! ## Ends of privileged instructions -/

/-- A privileged instruction of an entitled program is its body (R731). -/
theorem finish_entitled {s : State} (he : s.entitled = true) (body : Res Unit) :
    finish s (privileged s body) = finish s body :=
  congrArg (finish s) (privileged_entitled he body)

/-- P + 1 after an update that leaves the registers. -/
theorem finish_advance {s t : State} (hc : t.cur = s.cur) :
    finish s (.ok () t.advance) = .next (t.setCur { s.cur with p := s.cur.p + 1 }) :=
  finish_setCur hc RegSet.advance rfl

theorem finish_entitled_advance {s t : State} (he : s.entitled = true) (hc : t.cur = s.cur) :
    finish s (privileged s (.ok () t.advance)) = .next (t.setCur { s.cur with p := s.cur.p + 1 }) :=
  (finish_entitled he _).trans (finish_advance hc)

/-- A word read, the register it is loaded into, and P + 1. -/
theorem finish_entitled_load {r : Res Word} {s t : State} {v : Word} (he : s.entitled = true) (h : r = .ok v t)
    (hc : t.cur = s.cur) {f : Word → RegSet → RegSet} (hz : (f v s.cur).sts.getLsbD 3 = s.cur.sts.getLsbD 3) :
    finish s (privileged s (r.bind fun v u => .ok () (u.setCur (f v u.cur).advance))) =
      .next (t.setCur (f v s.cur).advance) :=
  (finish_entitled he _).trans ((finish_bind_ok h _).trans (finish_setCur hc (fun q => (f v q).advance) hz))

/-- Words written, and P + 1. -/
theorem finish_entitled_store {r : Res Unit} {s t : State} (he : s.entitled = true) (h : r = .ok () t)
    (hc : t.cur = s.cur) :
    finish s (privileged s (r.bind fun _ u => .ok () u.advance)) = .next (t.setCur { s.cur with p := s.cur.p + 1 }) :=
  (finish_entitled he _).trans ((finish_bind_ok h _).trans (finish_advance hc))

/-- Settles O51: each switch is one update, with the registers as they were, and P + 1. -/
theorem systemSwitches : Obligations.SystemSwitches := by
  unfold Obligations.SystemSwitches
  intro s he t
  have switched (u : State) (hc : u.cur = s.cur) := finish_entitled_advance he hc
  exact ⟨switched (s.setIoni false) rfl, switched (s.setIoni true) rfl, switched (s.setPoni false) rfl,
    switched (s.setPoni true) rfl, switched ((s.setIoni false).setPoni false) rfl,
    switched ((s.setIoni true).setPoni true) rfl, switched (s.setSexi true) rfl, switched (s.setSexi false) rfl,
    switched (s.setGlobals s.cur.t s.cur.a s.cur.d) rfl, (finish_entitled he _).trans (finish_ok_cur rfl)⟩

/-! ## Level selection (R703) -/

/-- The highest requesting level is the one selected. -/
theorem State.select_pil_eq {s : State} {lv : Level} (hon : s.ioni = true) (hreq : s.Requesting lv)
    (hmax : ∀ k, s.Requesting k → k.toNat ≤ lv.toNat) : s.select.pil = lv := by
  have requests (n : Nat) :
      (s.pid &&& s.pie).getLsbD n = true ↔ s.pid.getLsbD n = true ∧ s.pie.getLsbD n = true := by simp
  have bound := highestBit_le (s.pid &&& s.pie) 15
  apply BitVec.eq_of_toNat_eq
  rw [State.select_on hon]
  apply Nat.le_antisymm
  · rcases highestBit_set (s.pid &&& s.pie) 15 with zero | set
    · rw [zero]
      exact Nat.zero_le _
    · have level : (BitVec.ofNat 4 (highestBit (s.pid &&& s.pie) 15)).toNat = highestBit (s.pid &&& s.pie) 15 :=
        Nat.mod_eq_of_lt (Nat.lt_succ_of_le bound)
      have le := hmax (BitVec.ofNat 4 (highestBit (s.pid &&& s.pie) 15))
      rw [State.Requesting, level] at le
      exact le ((requests _).1 set)
  · exact le_highestBit (Nat.le_of_lt_succ lv.isLt) ((requests _).2 hreq)

/-- With no host event, the next fetch is on the highest requesting level; PIL alone changes, and the queue of host
events moves on. -/
theorem State.front_of_highest {s : State} {lv : Level} (hquiet : s.inbox.headD [] = []) (hon : s.ioni = true)
    (hreq : s.Requesting lv) (hmax : ∀ k, s.Requesting k → k.toNat ≤ lv.toNat) :
    s.front = (s.setInbox s.inbox.tail).setPil lv := by
  have selected : (s.setInbox s.inbox.tail).select.pil = lv := State.select_pil_eq hon hreq hmax
  rw [State.front, State.takeEvents_none hquiet, State.select_eq, selected]

/-! ## WAIT (R509) -/

/-- What WAIT leaves when the running level gives itself up. -/
def State.waited (s : State) : State :=
  (s.setCur { s.cur with p := s.cur.p + 1 }).setPid (s.pid &&& ~~~BitVec.twoPow 16 s.pil.toNat)

/-- Its own PID bit is cleared, and no other. -/
theorem State.getLsbD_waited_pid (s : State) (k : Nat) :
    s.waited.pid.getLsbD k = (s.pid.getLsbD k && decide (k ≠ s.pil.toNat)) := by
  have level : s.pil.toNat < 16 := s.pil.isLt
  change (setBit s.pid s.pil.toNat false).getLsbD k = _
  rw [getLsbD_setBit]
  by_cases h : k = s.pil.toNat <;> simp [h, level]

/-- The levels that still request. -/
theorem State.requesting_waited (s : State) (k : Level) : s.waited.Requesting k ↔ k ≠ s.pil ∧ s.Requesting k := by
  rw [State.Requesting, State.getLsbD_waited_pid, Bool.and_eq_true, decide_eq_true_eq, ne_eq, BitVec.toNat_inj,
    and_comm (a := s.pid.getLsbD k.toNat = true), and_assoc]
  rfl

section

variable {s : State} (he : s.entitled = true) (n : BitVec 8)
include he

theorem exec_wait_off (hoff : s.ioni = false) :
    exec (.wait n) s = .next ((s.setCur { s.cur with p := s.cur.p + 1 }).setRun .stopped) := by
  show execWait n s = _
  rw [execWait, finish_entitled he, hoff]
  exact finish_ok_of_sts (by rw [Bool.not_false, if_pos rfl, State.setRun_cur, State.advance, State.setCur_cur]; rfl)

theorem exec_wait_level_zero (hon : s.ioni = true) (h0 : s.pil = 0) :
    exec (.wait n) s = .next (s.setCur { s.cur with p := s.cur.p + 1 }) := by
  show execWait n s = _
  rw [execWait, finish_entitled he, hon, if_pos h0]
  exact finish_advance rfl

theorem exec_wait_giveUp (hon : s.ioni = true) (h0 : s.pil ≠ 0) : exec (.wait n) s = .next s.waited := by
  show execWait n s = _
  rw [execWait, finish_entitled he, hon, if_neg h0]
  exact finish_ok_of_sts (State.setCur_cur s s.cur.advance ▸ rfl)

end

/-- Settles O10: the three cases of R509; the levels that still request are those that did, but the one given up. -/
theorem waitAndReturn : Obligations.WaitAndReturn := by
  unfold Obligations.WaitAndReturn
  refine ⟨fun n s he => ?cases, fun n s he hon h0 hquiet => ?resume⟩
  case cases =>
    split_ifs with hoff h0
    · exact exec_wait_off he n hoff
    · exact exec_wait_level_zero he n (Bool.not_eq_false _ ▸ hoff) h0
    · exact exec_wait_giveUp he n (Bool.not_eq_false _ ▸ hoff) h0
  case resume =>
    refine ⟨_, exec_wait_giveUp he n hon h0, congrArg RegSet.p (State.setCur_cur _ _), s.getLsbD_waited_pid, rfl,
      fun lv hlv hreq hmax => ?_⟩
    have front : s.waited.front = (s.waited.setInbox s.waited.inbox.tail).setPil lv :=
      State.front_of_highest hquiet hon ((s.requesting_waited lv).2 ⟨hlv, hreq⟩) fun k hk =>
        have ⟨other, requesting⟩ := (s.requesting_waited k).1 hk
        hmax k other requesting
    rw [front]
    exact ⟨rfl, State.setCur_level_ne _ _ hlv, rfl, rfl, rfl⟩

/-! ## Requests after completion (R712) -/

theorem State.requestIfEnabled_on {s : State} {c : IntCode} (h : s.causeEnabled c = true) :
    s.requestIfEnabled c = s.request c := if_pos h

theorem State.requestIfEnabled_off {s : State} {c : IntCode} (h : s.causeEnabled c = false) :
    s.requestIfEnabled c = s := if_neg (by rw [h]; exact Bool.false_ne_true)


section

variable (s : State) (c : IntCode)

theorem State.requestIfEnabled_level (lv : Level) : (s.requestIfEnabled c).level lv = s.level lv := by
  unfold State.requestIfEnabled
  split <;> rfl

theorem State.requestIfEnabled_cur : (s.requestIfEnabled c).cur = s.cur := by
  unfold State.requestIfEnabled
  split <;> rfl

theorem State.requestIfEnabled_mem : (s.requestIfEnabled c).mem = s.mem := by
  unfold State.requestIfEnabled
  split <;> rfl

theorem State.requestIfEnabled_pt : (s.requestIfEnabled c).pt = s.pt := by
  unfold State.requestIfEnabled
  split <;> rfl

theorem State.sameControl_requestIfEnabled : SameControl s (s.requestIfEnabled c) := by
  unfold State.requestIfEnabled
  split
  · exact (s.request_requested c).control
  · exact ⟨rfl, rfl, rfl, rfl, rfl, rfl, rfl, rfl, rfl, rfl, rfl, rfl, rfl⟩

end

/-! ## MON (R516) -/

/-- What MON leaves before it requests: the call number in T of level 14, and P + 1. -/
def State.monitorCalled (s : State) (n : BitVec 8) : State :=
  (s.setLevel 14 { s.level 14 with t := sext8 n }).advance

theorem State.monitorCalled_cur (s : State) (n : BitVec 8) : (s.monitorCalled n).cur =
    { s.cur with t := if s.pil = 14 then sext8 n else s.cur.t, p := s.cur.p + 1 } := by
  have called : (s.setLevel 14 { s.level 14 with t := sext8 n }).cur =
      if s.pil = 14 then { s.level 14 with t := sext8 n } else s.cur := State.setLevel_level ..
  rw [State.monitorCalled, State.advance, State.setCur_cur, called]
  by_cases h : s.pil = 14
  · rw [if_pos h, if_pos h, ← h]
    rfl
  · rw [if_neg h, if_neg h]
    rfl

theorem State.monitorCalled_level (s : State) (n : BitVec 8) {lv : Level} (h : lv ≠ s.pil) :
    (s.monitorCalled n).level lv = if lv = 14 then { s.level 14 with t := sext8 n } else s.level lv :=
  (State.setCur_level_ne (s.setLevel 14 _) _ h).trans (State.setLevel_level ..)

/-- Level 14 has the call number, whether it runs or not. -/
theorem State.monitorCalled_t (s : State) (n : BitVec 8) : ((s.monitorCalled n).level 14).t = sext8 n := by
  by_cases h : s.pil = 14
  · have running : (s.monitorCalled n).level 14 = (s.monitorCalled n).cur := h ▸ rfl
    rw [running, State.monitorCalled_cur, if_pos h]
  · rw [State.monitorCalled_level s n (Ne.symm h), if_pos rfl]

theorem exec_mon (n : BitVec 8) (s : State) :
    exec (.mon n) s = .next ((s.monitorCalled n).requestIfEnabled .monitorCall) := by
  refine finish_ok_of_sts (s := (s.monitorCalled n).requestIfEnabled .monitorCall) ?_
  rw [State.requestIfEnabled_cur, State.monitorCalled_cur]

/-- Settles O11: the registers first, then a request that leaves them. -/
theorem monitorCall : Obligations.MonitorCall := by
  unfold Obligations.MonitorCall
  intro n s
  refine ⟨_, exec_mon n s, ?t14, ?cur, fun h => ?level14, fun lv h14 h => ?others,
    { (s.monitorCalled n).sameControl_requestIfEnabled .monitorCall with }, State.requestIfEnabled_mem _ _,
    State.requestIfEnabled_pt _ _, fun off => ?off, fun on => ?on⟩
  case t14 => exact (congrArg RegSet.t (State.requestIfEnabled_level _ _ 14)).trans (s.monitorCalled_t n)
  case cur => exact (State.requestIfEnabled_cur _ _).trans (s.monitorCalled_cur n)
  case level14 =>
    rw [State.requestIfEnabled_level, s.monitorCalled_level n (Ne.symm h), if_pos rfl]
    rfl
  case others => rw [State.requestIfEnabled_level, s.monitorCalled_level n h, if_neg h14]
  case off =>
    rw [State.requestIfEnabled_off (s := s.monitorCalled n) (c := .monitorCall) off]
    exact ⟨rfl, rfl, rfl⟩
  case on =>
    rw [State.requestIfEnabled_on (s := s.monitorCalled n) (c := .monitorCall) on]
    exact ⟨rfl, rfl, (s.monitorCalled n).request_iic .monitorCall⟩

end Sys2Proof.Machine

namespace Sys2Proof.Machine

open Sys2Proof Sys2Proof.Config

/-! # Input and output, OPCOM, LWCS, VERSN -/

/-! ## Inputs and outputs with and without a device (R512, R520 to R522) -/

/-- The host has been told, an answer is drawn, P has gone on; A is as it was. -/
def State.ioTold (s : State) (o : HostOutput) : State := ((s.emit o).drawn 1).advance

theorem State.ioTold_cur (s : State) (o : HostOutput) : (s.ioTold o).cur = { s.cur with p := s.cur.p + 1 } :=
  State.setCur_cur ..

theorem State.inputDone_answer {s : State} (o : HostOutput) (v : Word) : (s.emit o).inputDone (some v) =
    (s.ioTold o).setCur { s.cur with a := v, p := s.cur.p + 1 } :=
  (State.setCur_setCur ..).symm

/-- No device answers: the interrupt, if its cause is enabled, else an open A (log 34). -/
theorem State.inputDone_none {s : State} (o : HostOutput) : (s.emit o).inputDone none =
    if s.causeEnabled .ioxError = true then (s.ioTold o).request .ioxError
    else (s.ioTold o).setCur { s.cur with a := s.anyWord 0, p := s.cur.p + 1 } := by
  rw [State.ioTold, State.advance, State.setCur_setCur]
  rfl

/-- What an input leaves: P + 1, and flags as they were. -/
theorem State.inputDone_sts (s : State) (o : HostOutput) (answer : Option Word) :
    ((s.emit o).inputDone answer).cur.sts = s.cur.sts := by
  cases answer with
  | some v => rw [State.inputDone_answer, State.setCur_cur]
  | none =>
    rw [State.inputDone_none]
    split
    · rw [State.request_cur, State.ioTold_cur]
    · rw [State.setCur_cur]

theorem State.outputDone_sts (s : State) (o : HostOutput) (answered : Bool) :
    ((s.emit o).outputDone answered).cur.sts = s.cur.sts := by
  have told : (s.ioTold o).cur.sts = s.cur.sts := by rw [State.ioTold_cur]
  unfold State.outputDone State.requestIfEnabled
  split_ifs <;> exact told

theorem finish_input {s : State} (he : s.entitled = true) (o : HostOutput) (answer : Option Word) :
    finish s (privileged s (.ok () ((s.emit o).inputDone answer))) = .next ((s.emit o).inputDone answer) :=
  (finish_entitled he _).trans (finish_ok_of_sts (s.inputDone_sts o answer))

theorem finish_output {s : State} (he : s.entitled = true) (o : HostOutput) (answered : Bool) :
    finish s (privileged s (.ok () ((s.emit o).outputDone answered))) = .next ((s.emit o).outputDone answered) :=
  (finish_entitled he _).trans (finish_ok_of_sts (s.outputDone_sts o answered))

theorem transfer_even {addr : Word} (h : addr.getLsbD 0 = false) (s : State) :
    transfer addr s = .ok () ((s.emit (.ioRead addr)).inputDone (ioRead s.draws addr)) := by
  rw [transfer, h]
  rfl

theorem transfer_odd {addr : Word} (h : addr.getLsbD 0 = true) (s : State) :
    transfer addr s =
      .ok () ((s.emit (.ioWrite addr s.cur.a)).outputDone (ioWriteAnswered s.draws addr s.cur.a)) := by
  rw [transfer, h]
  rfl

/-! ## VERSN (R555) -/

/-- The installation number's byte that VERSN names is the low byte of D, A[11:8] being its number. -/
theorem versn_installation (v : VersionInfo) (a w : Word) :
    v.installation[a.toNat / 256 % 16]? =
      some ((leftByte w ++ v.installation[(a.extractLsb' 8 4).toNat]'(a.extractLsb' 8 4).isLt).extractLsb' 0 8) := by
  have index : (a.extractLsb' 8 4).toNat = a.toNat / 256 % 16 := by
    rw [BitVec.extractLsb'_toNat, Nat.shiftRight_eq_div_pow]
  have byte (b : Byte) : (leftByte w ++ b).extractLsb' 0 8 = b := rightByte_append _ b
  rw [byte, ← index]
  exact Vector.getElem?_eq_getElem _

theorem exec_versn_nd110 {s : State} (h : s.params.cpuModel = .nd110) :
    exec .versn s = .next ((s.drawn 1).setCur { s.cur with
      a := s.params.versionInfo.print ++ s.params.versionInfo.ald, t := s.params.versionInfo.microprogram
      d := leftByte (s.anyWord 0) ++
        s.params.versionInfo.installation[(s.cur.a.extractLsb' 8 4).toNat]'(s.cur.a.extractLsb' 8 4).isLt
      p := s.cur.p + 1 }) := by
  show execVersn s = _
  rw [execVersn, h]
  exact finish_ok_cur (s := s.drawn 1) rfl

theorem exec_versn_nd100 {s : State} (h : s.params.cpuModel = .nd100) :
    exec .versn s = takeTrap .illegalInstruction s := by
  show execVersn s = _
  rw [execVersn, h, finish_trap]

theorem exec_lwcs_nd110 {s : State} (he : s.entitled = true) (h : s.params.cpuModel = .nd110) :
    exec .lwcs s = .next (s.setCur { s.cur with p := s.cur.p + 1 }) := by
  show execLwcs s = _
  rw [execLwcs, h]
  exact finish_entitled_advance he rfl

/-- Settles O52: each instruction is an input or an output, with a device or without; VERSN and LWCS by the CPU's
model. -/
theorem inputOutput : Obligations.InputOutput := by
  unfold Obligations.InputOutput
  refine ⟨fun s he => ?transfers, fun s => ⟨fun he => ⟨?opcom, exec_lwcs_nd110 he⟩, fun h => ?versn,
    exec_versn_nd100⟩⟩
  case opcom => exact finish_entitled_advance (t := s.emit .opcom) he rfl
  case versn => exact ⟨_, exec_versn_nd110 h, versn_installation _ _ _⟩
  case transfers =>
    intro next input output moves
    have input_done (o : HostOutput) (answer : Option Word) : input o answer ((s.emit o).inputDone answer) := by
      cases answer with
      | some v => exact State.inputDone_answer o v
      | none =>
        rw [State.inputDone_none]
        by_cases enabled : s.causeEnabled .ioxError = true
        · rw [if_pos enabled]
          exact (if_pos enabled).mpr ((s.ioTold o).request_requested .ioxError)
        · rw [if_neg enabled]
          exact (if_neg enabled).mpr ⟨_, rfl⟩
    have output_done (o : HostOutput) (answered : Bool) :
        output o answered ((s.emit o).outputDone answered) := by
      cases answered with
      | true => exact (if_neg (fun h => Bool.false_ne_true h.1.symm)).mpr rfl
      | false =>
        by_cases enabled : s.causeEnabled .ioxError = true
        · have done : (s.emit o).outputDone false = (s.ioTold o).request .ioxError :=
            State.requestIfEnabled_on (s := s.ioTold o) enabled
          rw [done]
          exact (if_pos ⟨rfl, enabled⟩).mpr ((s.ioTold o).request_requested .ioxError)
        · exact (if_neg fun h => enabled h.2).mpr
            (State.requestIfEnabled_off (s := s.ioTold o) (Bool.not_eq_true _ ▸ enabled))
    have ident (lv : Level) : ∃ t, finish s (privileged s (identify lv s)) = .next t ∧
        input (.ident lv) (ioIdent s.draws lv) t := ⟨_, finish_input he _ _, input_done _ _⟩
    have transfers (i : Instr) (addr : Word) (hi : exec i s = finish s (privileged s (transfer addr s))) :
        moves i addr := by
      cases parity : addr.getLsbD 0 with
      | false =>
        rw [transfer_even parity] at hi
        exact ⟨_, hi.trans (finish_input he _ _), fun _ => input_done _ _,
          fun odd => absurd (parity.symm.trans odd) Bool.false_ne_true⟩
      | true =>
        rw [transfer_odd parity] at hi
        exact ⟨_, hi.trans (finish_output he _ _), fun even => absurd (even.symm.trans parity) Bool.false_ne_true,
          fun _ => output_done _ _⟩
    exact ⟨fun dev => transfers _ _ rfl, transfers _ _ rfl, ident 10, ident 11, ident 12, ident 13⟩

end Sys2Proof.Machine

namespace Sys2Proof.Machine

open Sys2Proof Sys2Proof.Config

/-! # Internal registers, and registers of other levels -/

theorem State.setCur_advance (s : State) (r : RegSet) : (s.setCur r).advance = s.setCur r.advance := by
  rw [State.advance, State.setCur_cur, State.setCur_setCur]

/-! ## STS as a word (R41) -/

section

variable (s : State) (lv : Level)

theorem State.stsWord_low : (s.stsWord lv).extractLsb' 0 8 = (s.level lv).sts := by
  unfold State.stsWord
  ext i hi
  grind

theorem State.stsWord_pil : (s.stsWord lv).extractLsb' 8 4 = s.pil := by
  unfold State.stsWord
  ext i hi
  grind

theorem State.stsWord_sexi : (s.stsWord lv).getLsbD 13 = s.sexi := by
  simp only [State.stsWord, bit, BitVec.getLsbD_append]
  simp

theorem State.stsWord_poni : (s.stsWord lv).getLsbD 14 = s.poni := by
  simp only [State.stsWord, bit, BitVec.getLsbD_append]
  simp

theorem State.stsWord_ioni : (s.stsWord lv).getLsbD 15 = s.ioni := by
  simp only [State.stsWord, bit, BitVec.getLsbD_append]
  simp

end

/-! ## TRA (R530) -/

theorem exec_tra {s : State} {r : BitVec 4} {reg : ReadReg} (he : s.entitled = true) (h : s.readReg r = some reg) :
    exec (.tra r) s = .next ((s.readInternal reg).2.setCur
      { s.cur with a := (s.readInternal reg).1, p := s.cur.p + 1 }) := by
  show execTra r s = _
  rw [execTra, finish_entitled he, h]
  exact finish_ok_cur rfl

/-- PVL stands in bits 6-3 (R711). -/
theorem State.pvlWord_pvl (s : State) : s.pvlWord.extractLsb' 3 4 = s.pvl := by
  unfold State.pvlWord
  ext i hi
  grind

/-! ## TRR, MCL and MST (R531 to R533) -/

/-- No internal register but STS is among the working registers. -/
theorem State.writeInternal_cur {reg : WriteReg} (h : reg ≠ .sts) (s : State) (v : Word) :
    (s.writeInternal reg v).cur = s.cur := by
  cases reg
  case sts => exact absurd rfl h
  all_goals rfl

/-- STS written: its low byte alone, which may set Z (R531). -/
theorem finish_writeInternal_sts (s : State) (v : Word) : finish s (.ok () (s.writeInternal .sts v).advance) =
    .next (s.raiseErrorFlag (s.setCur { s.cur with sts := rightByte v, p := s.cur.p + 1 })) := by
  rw [State.writeInternal, State.setCur_advance, finish_ok]
  rfl

section

variable {s : State} {r : BitVec 4} {reg : WriteReg} (he : s.entitled = true) (h : s.writeReg r = some reg)
include he h

theorem exec_trr : exec (.trr r) s = finish s (.ok () (s.writeInternal reg s.cur.a).advance) := by
  show execTrr r s = _
  rw [execTrr, finish_entitled he, h]

theorem exec_trr_next (hreg : reg ≠ .sts) :
    exec (.trr r) s = .next ((s.writeInternal reg s.cur.a).setCur { s.cur with p := s.cur.p + 1 }) :=
  (exec_trr he h).trans (finish_advance (State.writeInternal_cur hreg s s.cur.a))

variable (f : Word → Word → Word) (hmask : reg ∈ ([.sts, .pid, .pie] : List WriteReg))
include hmask

theorem finish_maskedWrite : finish s (privileged s (maskedWrite f r s)) =
    finish s (.ok () (s.writeInternal reg (f (s.currentInternal reg) s.cur.a)).advance) := by
  have accepted : s.maskedReg r = some reg :=
    Option.filter_eq_some_iff.2 ⟨h, by simpa [or_assoc] using hmask⟩
  rw [finish_entitled he, maskedWrite, accepted]

theorem finish_maskedWrite_next (hreg : reg ≠ .sts) : finish s (privileged s (maskedWrite f r s)) =
    .next ((s.writeInternal reg (f (s.currentInternal reg) s.cur.a)).setCur { s.cur with p := s.cur.p + 1 }) :=
  (finish_maskedWrite he h f hmask).trans (finish_advance (State.writeInternal_cur hreg s _))

end

/-- The low byte of STS with the bits of a word cleared. -/
theorem rightByte_setWidth_and_not (v : Byte) (a : Word) :
    rightByte (v.setWidth 16 &&& ~~~a) = v &&& ~~~rightByte a := by
  unfold rightByte
  ext i hi
  grind

theorem rightByte_setWidth_or (v : Byte) (a : Word) : rightByte (v.setWidth 16 ||| a) = v ||| rightByte a := by
  unfold rightByte
  ext i hi
  grind

section

variable {s : State} {r : BitVec 4} (he : s.entitled = true) (h : s.writeReg r = some .sts)
include he h

/-- MCL on STS clears flags, so that Z is not newly set (R708). -/
theorem exec_mcl_sts : exec (.mcl r) s =
    .next (s.setCur { s.cur with sts := s.cur.sts &&& ~~~rightByte s.cur.a, p := s.cur.p + 1 }) := by
  have written := (finish_maskedWrite he h (fun v a => v &&& ~~~a) (by decide)).trans (finish_writeInternal_sts s _)
  refine written.trans ?_
  rw [State.currentInternal, rightByte_setWidth_and_not, State.raiseErrorFlag_eq]
  intro set
  rw [State.errorFlag, State.setCur_cur, BitVec.getLsbD_and, Bool.and_eq_true] at set
  exact set.1

theorem exec_mst_sts : exec (.mst r) s = .next (s.raiseErrorFlag
    (s.setCur { s.cur with sts := s.cur.sts ||| rightByte s.cur.a, p := s.cur.p + 1 })) := by
  have written := (finish_maskedWrite he h (fun v a => v ||| a) (by decide)).trans (finish_writeInternal_sts s _)
  refine written.trans ?_
  rw [State.currentInternal, rightByte_setWidth_or]

end

/-! ## The numbers of the internal registers (R60) -/

theorem State.readReg_of_ne_one (s : State) {r : BitVec 4} (h : r ≠ 1) :
    some (s.readReg r) = s.params.regCodes.read[r.toNat]? := by
  rw [State.readReg, if_neg h, Vector.getElem?_eq_getElem]

theorem State.writeReg_of_ne_one (s : State) {r : BitVec 4} (h : r ≠ 1) :
    some (s.writeReg r) = s.params.regCodes.write[r.toNat]? := by
  rw [State.writeReg, if_neg h, Vector.getElem?_eq_getElem]

/-- Settles O53: TRA register by register; STS, PID and PIE by the three writers, the other registers by TRR alone. -/
theorem internalRegisters : Obligations.InternalRegisters := by
  unfold Obligations.InternalRegisters
  refine ⟨fun s r he => ⟨?reads, fun h => ⟨?trrSts, exec_mcl_sts he h, exec_mst_sts he h⟩, ?pid, ?pie,
    fun h => exec_trr_next he h (by decide), fun h => ?pcr, fun reg hreg h => ?host⟩,
    fun s => ⟨⟨rfl, rfl⟩, fun r hr => ⟨s.readReg_of_ne_one hr, s.writeReg_of_ne_one hr⟩, fun h => ?defaults⟩⟩
  case reads =>
    refine ⟨fun h => ⟨_, exec_tra he h, s.stsWord_low s.pil, s.stsWord_pil s.pil, s.stsWord_sexi s.pil,
        s.stsWord_poni s.pil, s.stsWord_ioni s.pil⟩, exec_tra he, exec_tra he, exec_tra he, exec_tra he,
      fun h => ⟨_, exec_tra he h, s.pvlWord_pvl⟩, fun reg hreg h => ⟨s.anyWord 0, (exec_tra he h).trans ?_⟩⟩
    have host : s.readInternal reg = (s.anyWord 0, s.drawn 1) := by
      simp only [List.mem_cons, List.not_mem_nil, or_false] at hreg
      rcases hreg with rfl | rfl | rfl | rfl | rfl | rfl | rfl | rfl | rfl <;> rfl
    rw [host]
  case trrSts => exact (exec_trr he h).trans (finish_writeInternal_sts s s.cur.a)
  case pid =>
    exact fun h => ⟨exec_trr_next he h (by decide),
      finish_maskedWrite_next he h (fun v a => v &&& ~~~a) (by decide) (by decide),
      finish_maskedWrite_next he h (fun v a => v ||| a) (by decide) (by decide)⟩
  case pie =>
    exact fun h => ⟨exec_trr_next he h (by decide),
      finish_maskedWrite_next he h (fun v a => v &&& ~~~a) (by decide) (by decide),
      finish_maskedWrite_next he h (fun v a => v ||| a) (by decide) (by decide)⟩
  case pcr =>
    exact ⟨_, exec_trr_next he h (by decide), rfl, s.setPcr_pcrOf_same _ _, fun lv hlv => s.setPcr_pcrOf_ne _ hlv⟩
  case host =>
    have unmodelled : s.writeInternal reg s.cur.a = s ∧ reg ≠ .sts := by
      simp only [List.mem_cons, List.not_mem_nil, or_false] at hreg
      rcases hreg with rfl | rfl | rfl | rfl | rfl | rfl | rfl | rfl <;> exact ⟨rfl, by decide⟩
    rw [exec_trr_next he h unmodelled.2, unmodelled.1]
  case defaults =>
    simp only [State.readReg, State.writeReg, h]
    exact ⟨rfl, rfl⟩


/-! ## IRR and IRW (R540, R541) -/

theorem exec_irr {s : State} (he : s.entitled = true) (lv : Level) (reg : RegCode) : exec (.irr lv reg) s =
    .next ((if reg = .zero then s.drawn 1 else s).setCur
      { s.cur with a := s.interRead lv reg, p := s.cur.p + 1 }) :=
  (finish_entitled he _).trans (finish_ok_cur rfl)

/-- What IRW leaves (R541). -/
def State.interWritten (s : State) (lv : Level) (reg : RegCode) : State :=
  if lv = s.pil ∧ reg = .p then s.setLevel lv ((s.level lv).interWrite reg s.cur.a)
  else (s.setLevel lv ((s.level lv).interWrite reg s.cur.a)).advance

theorem exec_irw {s : State} (he : s.entitled = true) (lv : Level) (reg : RegCode) :
    exec (.irw lv reg) s = .next (s.raiseErrorFlag (s.interWritten lv reg)) :=
  (finish_entitled he _).trans (finish_ok s _)

/-- A level's registers written, then P + 1 of the running level. -/
theorem State.setLevel_advance_level (s : State) {lv k : Level} (r : RegSet) (h : k ≠ s.pil) :
    (s.setLevel lv r).advance.level k = if k = lv then r else s.level k :=
  (State.setCur_level_ne (s.setLevel lv r) _ h).trans (State.setLevel_level ..)

theorem State.setLevel_advance_cur (s : State) (lv : Level) (r : RegSet) :
    (s.setLevel lv r).advance.cur = (if s.pil = lv then r else s.cur).advance :=
  (State.setCur_cur _ _).trans (congrArg RegSet.advance (State.setLevel_level s lv s.pil r))

/-- Everything but the registers stays. -/
theorem State.interWritten_eq (s : State) (lv : Level) (reg : RegCode) :
    s.interWritten lv reg = { s with regs := (s.interWritten lv reg).regs } := by
  unfold State.interWritten
  split <;> rfl

/-- Writing a register but P leaves P. -/
theorem RegSet.interWrite_p {reg : RegCode} (h : reg ≠ .p) (r : RegSet) (v : Word) : (r.interWrite reg v).p = r.p := by
  cases reg
  case p => exact absurd rfl h
  all_goals rfl

section

variable {s : State} {lv : Level} (reg : RegCode)

theorem State.interWritten_level {k : Level} (h : k ≠ lv) (hk : k ≠ s.pil) :
    (s.interWritten lv reg).level k = s.level k := by
  unfold State.interWritten
  split
  · exact State.setLevel_level_ne s _ h
  · rw [s.setLevel_advance_level _ hk, if_neg h]

/-- Another level's register written. -/
theorem State.interWritten_other (h : lv ≠ s.pil) :
    (s.interWritten lv reg).level lv = (s.level lv).interWrite reg s.cur.a ∧
      (s.interWritten lv reg).cur = { s.cur with p := s.cur.p + 1 } := by
  rw [State.interWritten, if_neg fun own => h own.1, s.setLevel_advance_level _ h, s.setLevel_advance_cur,
    if_pos rfl, if_neg (Ne.symm h)]
  exact ⟨rfl, rfl⟩

/-- The running level's register written: a jump, or the register and P + 1. -/
theorem State.interWritten_own : (s.interWritten s.pil reg).cur =
    if reg = .p then s.cur.interWrite reg s.cur.a
    else { s.cur.interWrite reg s.cur.a with p := s.cur.p + 1 } := by
  by_cases h : reg = .p
  · rw [State.interWritten, if_pos ⟨rfl, h⟩, if_pos h]
    exact State.setCur_cur s _
  · rw [State.interWritten, if_neg fun own => h own.2, if_neg h, s.setLevel_advance_cur, if_pos rfl, RegSet.advance,
      RegSet.interWrite_p h]
    rfl

end

/-- Settles O54: IRR's value by the register; IRW's registers by the level. -/
theorem interRegister : Obligations.InterRegister := by
  unfold Obligations.InterRegister
  intro lv reg s he new
  have written : (s.level lv).interWrite reg s.cur.a = new := rfl
  refine ⟨⟨_, _, exec_irr he lv reg, fun h => ⟨if_neg h, if_neg h⟩, fun h => ?sts⟩,
    ⟨_, exec_irw he lv reg, s.interWritten_eq lv reg, fun k => State.interWritten_level reg,
      fun h => written ▸ State.interWritten_other reg h, fun h => ?own⟩⟩
  case sts =>
    have word : s.interRead lv reg = s.stsWord lv := if_pos h
    rw [word]
    exact ⟨if_pos h, s.stsWord_low lv, s.stsWord_pil lv, s.stsWord_sexi lv, s.stsWord_poni lv, s.stsWord_ioni lv⟩
  case own =>
    rw [← written, h]
    exact State.interWritten_own reg

/-! ## Blocks of words (R542, R543) -/

theorem add_one_add_ofNat (a : Word) (i : Nat) : a + 1 + BitVec.ofNat 16 i = a + BitVec.ofNat 16 (i + 1) := by
  rw [BitVec.ofNat_add, BitVec.add_assoc, BitVec.add_comm (BitVec.ofNat 16 i)]
  rfl

/-- With memory management off the words are read in order, and nothing changes (R82). -/
theorem memReadList_flat {s : State} (hflat : s.Flat) (a : Word) (n : Nat) :
    memReadList a n s = .ok ((List.range n).map fun i => s.flatWord (a + BitVec.ofNat 16 i)) s := by
  induction n generalizing a with
  | zero => rfl
  | succ n ih =>
    simp only [memReadList, memRead_flat hflat, Res.bind_ok, ih, List.range_succ_eq_map, List.map_cons, List.map_map,
      Function.comp_def, add_one_add_ofNat, BitVec.add_zero, Nat.succ_eq_add_one]

/-- Words stand at ascending addresses, every other word and byte being as it was. -/
structure WordsWritten (a : Word) (vs : List Word) (s t : State) : Prop where
  words : ∀ i (h : i < vs.length), t.flatWord (a + BitVec.ofNat 16 i) = vs[i]
  others : ∀ b, (∀ i < vs.length, b ≠ a + BitVec.ofNat 16 i) → t.flatWord b = s.flatWord b
  bytes : SameBytesBut ((List.range vs.length).flatMap fun i => cellsOf (flatPlace (a + BitVec.ofNat 16 i))) s t

theorem WordsWritten.nil (a : Word) (s : State) : WordsWritten a [] s s where
  words _ h := absurd h (Nat.not_lt_zero _)
  others _ _ := rfl
  bytes _ _ := rfl

/-- A first word in front of those written after it: they do not come round to its address. -/
theorem WordsWritten.cons {a v : Word} {vs : List Word} {s t : State} (hlen : vs.length < 65536)
    (h : WordsWritten (a + 1) vs (s.writePlace v (flatPlace a)) t) : WordsWritten a (v :: vs) s t where
  words
    | 0, _ => by
      have first : t.flatWord a = v := by
        rw [h.others a fun i hi => by bv_omega, State.flatWord_writePlace, if_pos rfl]
      rw [BitVec.add_zero, first, List.getElem_cons_zero]
    | i + 1, hi => by
      rw [← add_one_add_ofNat, h.words i (Nat.lt_of_succ_lt_succ hi), List.getElem_cons_succ]
  others b hb := by
    have first : b ≠ a := by simpa using hb 0 (Nat.succ_pos _)
    rw [h.others b fun i hi => add_one_add_ofNat a i ▸ hb (i + 1) (Nat.succ_lt_succ hi), State.flatWord_writePlace,
      if_neg first]
  bytes := by
    have frame := (s.sameBytesBut_writePlace v (flatPlace a)).trans h.bytes
    simpa only [List.length_cons, List.range_succ_eq_map, List.flatMap_cons, List.flatMap_map, add_one_add_ofNat,
      BitVec.add_zero, Nat.succ_eq_add_one] using frame

/-- With memory management off words are written in order, each at its flat place (R82). -/
theorem memWriteList_flat {vs : List Word} (hlen : vs.length ≤ 65536) {s : State} (hflat : s.Flat) (a : Word) :
    ∃ t, memWriteList a vs s = .ok () t ∧ WordsWritten a vs s t := by
  induction vs generalizing a s with
  | nil => exact ⟨s, rfl, WordsWritten.nil a s⟩
  | cons v vs ih =>
    rw [memWriteList_cons_ok (memWrite_flat hflat a v)]
    obtain ⟨t, hw, written⟩ := ih (Nat.le_of_succ_le hlen) ((State.flat_writePlace s v (flatPlace a)).2 hflat) (a + 1)
    exact ⟨t, hw, written.cons hlen⟩

/-! ## LRB and SRB (R542, R543) -/

/-- The registers LRB leaves in a level: the own P is not loaded (R542). -/
def State.loadedBlock (s : State) (lv : Level) : RegSet :=
  let loaded := RegSet.ofBlock ((List.range 8).map fun i => s.flatWord (s.cur.x + BitVec.ofNat 16 i))
  if lv = s.pil then { loaded with p := s.cur.p } else loaded

theorem exec_lrb {s : State} (hflat : s.Flat) (lv : Level) :
    exec (.lrb lv) s = .next (s.raiseErrorFlag (s.setLevel lv (s.loadedBlock lv)).advance) := by
  show execLrb lv s = _
  rw [execLrb, finish_entitled hflat.entitled, memReadList_flat hflat, Res.bind_ok, finish_ok, State.loadedBlock]
  split
  · next own => rw [own]; rfl
  · rfl

theorem exec_srb {s t : State} (he : s.entitled = true) {lv : Level}
    (hw : memWriteList s.cur.x (s.blockWords lv) (s.drawn 1) = .ok () t) :
    exec (.srb lv) s = .next (t.setCur { s.cur with p := s.cur.p + 1 }) :=
  finish_entitled_store he hw (memWriteList_sameMachine hw).cur

/-- Settles O55: the eight words read or written in order, at their flat places. -/
theorem registerBlocks : Obligations.RegisterBlocks := by
  unfold Obligations.RegisterBlocks
  intro lv s hflat w loaded
  have block : RegSet.ofBlock ((List.range 8).map fun i => s.flatWord (s.cur.x + BitVec.ofNat 16 i)) = loaded := rfl
  refine ⟨⟨_, exec_lrb hflat lv, rfl, fun k h hk => ?others, fun h => ?other, fun h => ?own⟩, ?srb⟩
  case others => rw [s.setLevel_advance_level _ hk, if_neg h]
  case other =>
    rw [s.setLevel_advance_level _ h, if_pos rfl, s.setLevel_advance_cur, if_neg (Ne.symm h), State.loadedBlock,
      if_neg h, block]
    exact ⟨rfl, rfl⟩
  case own =>
    rw [s.setLevel_advance_cur, if_pos h.symm, State.loadedBlock, if_pos h, block]
    rfl
  case srb =>
    obtain ⟨t, hw, written⟩ :=
      memWriteList_flat (vs := s.blockWords lv) (Nat.le_of_ble_eq_true rfl) ((State.flat_drawn s 1).2 hflat) s.cur.x
    have same := (s.sameMachine_drawn 1).trans (memWriteList_sameMachine hw)
    have word (i : Nat) (hi : i < 8) : (t.setCur { s.cur with p := s.cur.p + 1 }).flatWord
        (s.cur.x + BitVec.ofNat 16 i) = (s.blockWords lv)[i] :=
      (State.flatWord_setCur _ _ _).trans (written.words i hi)
    have word6 := word 6 (by decide)
    have ownP : s.interRead lv .p = if lv = s.pil then s.cur.p + 1 else (s.level lv).p := by
      by_cases h : lv = s.pil <;> simp [State.interRead, h, RegSet.get]
    refine ⟨_, exec_srb hflat.entitled hw, State.setCur_cur _ _, same.sameOtherLevels_setCur _,
      same.sameSystem_setCur _, ?_, word 1 (by decide), word 2 (by decide), word 3 (by decide), word 4 (by decide),
      word 5 (by decide), ?_, ?_, word 7 (by decide), SameBytesBut.setCur (s := s) written.bytes _⟩
    · rw [← ownP, ← BitVec.add_zero s.cur.x]
      exact word 0 (by decide)
    · exact (congrArg _ word6).trans (s.stsWord_low lv)
    · exact (congrArg _ word6).trans (s.stsWord_pil lv)

end Sys2Proof.Machine

namespace Sys2Proof.Machine

open Sys2Proof Sys2Proof.Config

/-! # Physical memory, and logical memory by address and bit -/

/-! ## Loads from physical memory -/

theorem finish_physLoad {s : State} {b a : Word} (he : s.entitled = true)
    (hi : s.installed (s.physPlace b a) = true) {f : Word → RegSet → RegSet}
    (hz : (f (s.readPlace (s.physPlace b a)) s.cur).sts.getLsbD 3 = s.cur.sts.getLsbD 3) :
    finish s (privileged s ((physRead b a s).bind fun v u => .ok () (u.setCur (f v u.cur).advance))) =
      .next (s.setCur (f (s.readPlace (s.physPlace b a)) s.cur).advance) :=
  finish_entitled_load he (physRead_installed hi) rfl hz

/-- LDDTX: the second word is read where the first read has changed nothing. -/
theorem exec_lddtx {s : State} {e : BitVec 3} (he : s.entitled = true)
    (h1 : s.installed (s.physPlace s.cur.t (s.cur.x + e.setWidth 16)) = true)
    (h2 : s.installed (s.physPlace s.cur.t (s.cur.x + e.setWidth 16 + 1)) = true) :
    exec (.lddtx e) s = .next (s.setCur { s.cur with
      a := s.readPlace (s.physPlace s.cur.t (s.cur.x + e.setWidth 16))
      d := s.readPlace (s.physPlace s.cur.t (s.cur.x + e.setWidth 16 + 1)), p := s.cur.p + 1 }) :=
  (finish_entitled he _).trans ((finish_bind_ok (physRead_installed h1) _).trans
    ((finish_bind_ok (physRead_installed h2) _).trans (finish_ok_cur rfl)))

/-- LDBTX's address of a page-table entry (R575). -/
theorem entryAddr_eq (n : Word) : entryAddr n = 0o177000 ||| (2 * n) := by
  have double : n <<< 1 = 2 * n := by bv_omega
  rw [entryAddr, double]
  rfl

/-- The flag K is not the error flag. -/
theorem RegSet.setK_z (r : RegSet) (k : Bool) : (r.setK k).sts.getLsbD 3 = r.sts.getLsbD 3 := by
  rw [RegSet.setK_sts, getLsbD_setBit, if_neg (by decide)]

/-- Settles O56: one rule for the loads of one word, each with its address and register. -/
theorem physicalLoads : Obligations.PhysicalLoads := by
  unfold Obligations.PhysicalLoads
  intro e s he r d there at' go
  refine ⟨fun h => finish_physLoad he h (f := fun v r => { r with t := v }) rfl,
    fun h => ⟨finish_physLoad he h (f := fun v r => { r with a := v }) rfl,
      finish_physLoad he h (f := fun v r => { r with x := v }) rfl, ?ldbtx, exec_lddtx he h⟩,
    fun h => ⟨finish_physLoad he h (f := fun v r => { r with a := v }) rfl,
      finish_physLoad he h (f := fun v r => { r with x := v }) rfl⟩,
    fun h => ⟨finish_physLoad he h (f := fun v r => { r with a := v }) rfl,
      finish_physLoad he h (f := fun v r => { r with x := v }) rfl⟩,
    fun h => finish_physLoad he h (f := fun v r => { r with a := v }) rfl, fun h => ?lbytp, fun h => ?lbitp⟩
  case ldbtx =>
    rw [← entryAddr_eq]
    exact finish_physLoad he h (f := fun v r => { r with b := entryAddr v }) rfl
  case lbytp =>
    rw [← loadByte_setWidth]
    exact finish_physLoad he h
      (f := fun v r => { r with a := (loadByte v (byteSel r.x)).setWidth 16 }) rfl
  case lbitp =>
    exact finish_physLoad he h (f := fun v r => r.setK (v.getLsbD (bitPos r.a))) (RegSet.setK_z _ _)


/-! ## Stores into physical memory -/

/-- Different addresses of one bank are different places (R85, R97). -/
theorem State.physPlace_inj {s : State} {b a c : Word} (h : s.physPlace b a = s.physPlace b c) : a = c := by
  by_cases hb : s.bank b = 0
  · have flat (a : Word) : s.physPlace b a = flatPlace a := by
      have low : (0 : BitVec 8) ++ a = a.setWidth 24 := by
        apply BitVec.eq_of_toNat_eq
        rw [bank_append_toNat, toNat_setWidth_24]
        exact Nat.zero_add _
      rw [State.physPlace, hb, low, flatPlace, decide_eq_true rfl, Bool.true_and]
    rw [flat, flat] at h
    exact flatPlace_inj h
  · rw [State.physPlace_phys (.inl fun zero => hb (BitVec.eq_of_toNat_eq zero)),
      State.physPlace_phys (.inl fun zero => hb (BitVec.eq_of_toNat_eq zero)), TransTarget.phys.injEq] at h
    have sums := congrArg BitVec.toNat h
    rw [bank_append_toNat, bank_append_toNat] at sums
    exact BitVec.eq_of_toNat_eq (Nat.add_left_cancel sums)

/-- A word written does not move a place (R85). -/
theorem State.physPlace_writePlace (s : State) (v : Word) (p : TransTarget) (b a : Word) :
    (s.writePlace v p).physPlace b a = s.physPlace b a := by
  cases p <;> rfl

theorem State.installed_writePlace (s : State) (v : Word) (p q : TransTarget) :
    (s.writePlace v p).installed q = s.installed q := by
  cases p <;> cases q <;> rfl

theorem physWrite_writePlace {s : State} {b a v w : Word} {p : TransTarget}
    (hi : s.installed (s.physPlace b a) = true) :
    physWrite b a v (s.writePlace w p) = .ok () ((s.writePlace w p).writePlace v (s.physPlace b a)) := by
  rw [← s.physPlace_writePlace w p] at hi ⊢
  exact physWrite_installed ((s.installed_writePlace w p _).trans hi)

section

variable {s : State} {b a : Word} (hi : s.installed (s.physPlace b a) = true)
include hi

theorem finish_physWrite (v : Word) : finish s ((physWrite b a v s).bind fun _ u => .ok () u.advance) =
    .next ((s.writePlace v (s.physPlace b a)).setCur { s.cur with p := s.cur.p + 1 }) :=
  (finish_bind_ok (physWrite_installed hi) _).trans (finish_advance (s.writePlace_cur v _))

theorem finish_physStore (he : s.entitled = true) (v : Word) :
    finish s (privileged s ((physWrite b a v s).bind fun _ u => .ok () u.advance)) =
      .next ((s.writePlace v (s.physPlace b a)).setCur { s.cur with p := s.cur.p + 1 }) :=
  (finish_entitled he _).trans (finish_physWrite hi v)

end

section

variable {s : State} (he : s.entitled = true)
include he

/-- STDTX: the first word written leaves the address of the second. -/
theorem exec_stdtx {e : BitVec 3} (h1 : s.installed (s.physPlace s.cur.t (s.cur.x + e.setWidth 16)) = true)
    (h2 : s.installed (s.physPlace s.cur.t (s.cur.x + e.setWidth 16 + 1)) = true) : exec (.stdtx e) s =
      .next (((s.writePlace s.cur.a (s.physPlace s.cur.t (s.cur.x + e.setWidth 16))).writePlace s.cur.d
        (s.physPlace s.cur.t (s.cur.x + e.setWidth 16 + 1))).setCur { s.cur with p := s.cur.p + 1 }) := by
  show execStdtx e s = _
  rw [execStdtx, finish_entitled he]
  refine (finish_bind_ok (physWrite_installed h1) _).trans ?_
  rw [State.writePlace_cur]
  exact (finish_bind_ok (physWrite_writePlace h2) _).trans
    (finish_advance (by rw [State.writePlace_cur, State.writePlace_cur]))

theorem exec_sbytp (hi : s.installed (s.physPlace s.cur.d (s.cur.t + s.cur.x >>> 1)) = true) :
    exec .sbytp s = .next ((s.writePlace
      (storeByte (s.readPlace (s.physPlace s.cur.d (s.cur.t + s.cur.x >>> 1))) (s.cur.x.getLsbD 0) (rightByte s.cur.a))
      (s.physPlace s.cur.d (s.cur.t + s.cur.x >>> 1))).setCur { s.cur with p := s.cur.p + 1 }) :=
  (finish_entitled he _).trans ((finish_bind_ok (physRead_installed hi) _).trans (finish_physWrite hi _))

theorem exec_sbitp (hi : s.installed (s.physPlace s.cur.t (s.cur.x + s.cur.a >>> 4)) = true) :
    exec .sbitp s = .next ((s.writePlace
      (setBit (s.readPlace (s.physPlace s.cur.t (s.cur.x + s.cur.a >>> 4))) (s.cur.a.toNat % 16) s.cur.k)
      (s.physPlace s.cur.t (s.cur.x + s.cur.a >>> 4))).setCur { s.cur with p := s.cur.p + 1 }) :=
  (finish_entitled he _).trans ((finish_bind_ok (physRead_installed hi) _).trans (finish_physWrite hi _))

theorem exec_tsetp (hi : s.installed (s.physPlace s.cur.t s.cur.x) = true) :
    exec .tsetp s = .next ((s.writePlace 0o177777 (s.physPlace s.cur.t s.cur.x)).setCur
      { s.cur with a := s.readPlace (s.physPlace s.cur.t s.cur.x), p := s.cur.p + 1 }) :=
  (finish_entitled he _).trans ((finish_bind_ok (physRead_installed hi) _).trans
    ((finish_bind_ok (physWrite_installed hi) _).trans (finish_setCur (s.writePlace_cur _ _)
      (fun r => { r with a := s.readPlace (s.physPlace s.cur.t s.cur.x), p := r.p + 1 }) rfl)))

end

/-- One bit of a word replaced, the others kept (R350). -/
theorem getLsbD_setBit_word (w : Word) (k : Nat) (v : Bool) (n : Nat) (hn : n < 16) :
    (setBit w k v).getLsbD n = if n = k then v else w.getLsbD n := by
  simp only [getLsbD_setBit, and_iff_left hn]

/-- Settles O57: one place is written, in STDTX two different ones. -/
theorem physicalStores : Obligations.PhysicalStores := by
  unfold Obligations.PhysicalStores
  intro e s he r d there at' stored
  have stored_of {i : Instr} {b a v : Word} {q : RegSet} (h : exec i s =
      .next ((s.writePlace v (s.physPlace b a)).setCur { q with p := r.p + 1 })) : stored i b a v q :=
    have same := s.sameMachine_writePlace v (s.physPlace b a)
    ⟨_, h, (State.readPlace_setCur _ _ _).trans (s.readPlace_writePlace_same v _), State.setCur_cur _ _,
      (s.sameBytesBut_writePlace v _).setCur _, same.sameOtherLevels_setCur _, same.sameSystem_setCur _⟩
  refine ⟨fun h => stored_of (finish_physStore h he _), fun h => ⟨stored_of (finish_physStore h he _),
      stored_of (finish_physStore h he _), fun h' => ?stdtx⟩,
    fun h => ⟨stored_of (finish_physStore h he _), stored_of (finish_physStore h he _)⟩,
    fun h => ⟨stored_of (finish_physStore h he _), stored_of (finish_physStore h he _)⟩,
    fun h => stored_of (exec_sbytp he h),
    fun h => ⟨_, stored_of (exec_sbitp he h), getLsbD_setBit_word _ _ _⟩, fun h => stored_of (exec_tsetp he h)⟩
  case stdtx =>
    have different : s.physPlace r.t (r.x + d) ≠ s.physPlace r.t (r.x + d + 1) := fun same => by
      have := State.physPlace_inj same
      bv_omega
    have same := (s.sameMachine_writePlace r.a (s.physPlace r.t (r.x + d))).trans
      (State.sameMachine_writePlace _ r.d (s.physPlace r.t (r.x + d + 1)))
    refine ⟨_, exec_stdtx he h h', ?_, ?_, State.setCur_cur _ _, same.sameOtherLevels_setCur _,
      same.sameSystem_setCur _,
      ((State.sameBytesBut_writePlace _ _ _).trans (State.sameBytesBut_writePlace _ _ _)).setCur _⟩
    · rw [State.readPlace_setCur, State.readPlace_writePlace, if_neg different, State.readPlace_writePlace_same]
    · rw [State.readPlace_setCur, State.readPlace_writePlace_same]

/-! ## RDUS, LBIT, SBIT, TSET (R552, R553, R595, R596) -/

theorem exec_rdus {s t : State} {v : Word} (he : s.entitled = true) (h : memRead s.cur.t s = .ok v t) :
    exec .rdus s = .next (t.setCur { s.cur with a := v, p := s.cur.p + 1 }) :=
  finish_entitled_load he h (memRead_ok h).cur (f := fun v r => { r with a := v }) rfl

theorem exec_lbit {s t : State} {v : Word} (he : s.entitled = true)
    (h : memRead (s.cur.x + s.cur.a >>> 4) s = .ok v t) :
    exec .lbit s = .next (t.setCur (s.cur.setK (v.getLsbD (s.cur.a.toNat % 16))).advance) :=
  finish_entitled_load he h (memRead_ok h).cur (f := fun v r => r.setK (v.getLsbD (bitPos r.a)))
    (RegSet.setK_z _ _)

/-- SBIT: the read leaves the address and the bit to write. -/
theorem exec_sbit {s s1 s2 : State} {v : Word} {p : TransTarget} (he : s.entitled = true)
    (hr : memRead (s.cur.x + s.cur.a >>> 4) s = .ok v s1)
    (hl : locate .write .untagged (s.cur.x + s.cur.a >>> 4) s1 = .ok p s2) :
    exec .sbit s = .next ((s2.writePlace (setBit v (s.cur.a.toNat % 16) s.cur.k) p).setCur
      { s.cur with p := s.cur.p + 1 }) := by
  have cur1 := (memRead_ok hr).cur
  show execSbit s = _
  rw [execSbit, finish_entitled he]
  refine (finish_bind_ok hr _).trans ?_
  rw [cur1]
  exact (finish_bind_ok (memWrite_of_locate hl) _).trans
    (finish_advance (by rw [State.writePlace_cur, (locate_ok hl).cur, cur1]))

theorem exec_tset {s t : State} {p : TransTarget} (he : s.entitled = true)
    (h : locate .write .untagged s.cur.t s = .ok p t) :
    exec .tset s = .next ((t.writePlace 0o177777 p).setCur
      { s.cur with a := t.readPlace p, p := s.cur.p + 1 }) := by
  have pair : memTestAndSet s.cur.t s = .ok (t.readPlace p) (t.writePlace 0o177777 p) := by
    rw [memTestAndSet, h, Res.bind_ok]
  exact finish_entitled_load he pair (by rw [State.writePlace_cur, (locate_ok h).cur])
    (f := fun v r => { r with a := v }) rfl

/-- Settles O58: the read or the one translation first, then the bit or the word. -/
theorem logicalAccess : Obligations.LogicalAccess := by
  unfold Obligations.LogicalAccess
  intro s s1 s2 v p he r ba
  refine ⟨fun h => ⟨memRead_ok h, exec_rdus he h⟩, fun h => ⟨memRead_ok h, exec_lbit he h, fun hl => ?sbit⟩,
    fun h => ⟨locate_ok h, exec_tset he h, s1.sameBytesBut_writePlace _ p⟩⟩
  case sbit => exact ⟨_, exec_sbit he h hl, (memRead_ok h).trans (locate_ok hl), getLsbD_setBit_word _ _ _⟩

end Sys2Proof.Machine

namespace Sys2Proof.Machine

open Sys2Proof Sys2Proof.Config

/-! # Programs without entitlement -/

/-! ## Privileged instructions (R731) -/

/-- The privilege check of a program without entitlement, before any effect. -/
theorem finish_unentitled {s : State} (he : s.entitled = false) (body : Res Unit) :
    finish s (privileged s body) = takeTrap .privilegedInstruction s :=
  congrArg (finish s) (privileged_not he body)

/-- Settles O16: each privileged instruction is the privilege check and then a body. -/
theorem privilegedTraps : Obligations.PrivilegedTraps := by
  unfold Obligations.PrivilegedTraps
  intro i s hi he
  cases i with
  | iof | ion | pof | pon | piof | pion | sex | rex | opcom | wait => exact finish_unentitled he _
  | identPl10 | identPl11 | identPl12 | identPl13 | iox | ioxt | iot => exact finish_unentitled he _
  | tra | trr | mcl | mst | irr | irw | lrb | srb => exact finish_unentitled he _
  | exam | depo | lwcs | rdus | tset => exact finish_unentitled he _
  | chreentpages | clept | clnreent | clpt | cnrek | enpt | inspl | rempl | rept | setpt | clepu =>
    exact finish_unentitled he _
  | lacb | lasb | lxcb | lxsb | sacb | sasb | szcb | szsb => exact finish_unentitled he _
  | lbit | lbitp | lbytp | sbit | sbitp | sbytp | tsetp | rdusp | wglob | rglob => exact finish_unentitled he _
  | ldatx | ldbtx | lddtx | ldxtx | statx | stdtx | stztx => exact finish_unentitled he _
  | movew2 | movew5 | movew6 | movew7 | movew10 => exact finish_unentitled he _
  | _ => exact absurd hi Bool.false_ne_true

/-! ## What a program without entitlement can leave -/

/-- PID, PVL and IIC are as they were, or as internal interrupts latch them on the level of `s` (R712). -/
def Latched (s t : State) : Prop :=
  (t.pid = s.pid ∧ t.pvl = s.pvl ∧ t.iic = s.iic) ∨
    (t.pid = s.pid ||| 0o40000 ∧ t.pvl = s.pil ∧ ((∃ c, t.iic = s.intCode c) ∨ (s.iic ≠ 0 ∧ t.iic = s.iic)))

/-- What only the entitled may reach is as it was (R732). -/
structure Isolated (s t : State) : Prop where
  control : SameControl s t
  inbox : t.inbox = s.inbox
  levels : ∀ lv, lv ≠ s.pil → t.level lv = { s.level lv with t := (t.level lv).t } ∧
    (lv ≠ 14 → t.level lv = s.level lv)
  latched : Latched s t

theorem Isolated.refl (s : State) : Isolated s s where
  control := ⟨rfl, rfl, rfl, rfl, rfl, rfl, rfl, rfl, rfl, rfl, rfl, rfl, rfl⟩
  inbox := rfl
  levels _ _ := ⟨rfl, fun _ => rfl⟩
  latched := .inl ⟨rfl, rfl, rfl⟩

section

variable {s t : State} (h : Isolated s t)
include h

/-- Updates of the registers that leave every other level, of the stores, and of the count of open values. -/
theorem Isolated.update {regs : Vector RegSet 16} (mem pt : Memory) (draws : Nat)
    (ho : ∀ lv, lv ≠ s.pil → ({ t with regs } : State).level lv = t.level lv) :
    Isolated s { t with regs, mem, pt, draws } where
  control := { h.control with }
  inbox := h.inbox
  levels lv hlv := by
    have same : ({ t with regs, mem, pt, draws } : State).level lv = t.level lv := ho lv hlv
    rw [same]
    exact h.levels lv hlv
  latched := h.latched

/-- T of level 14 written, as MON does (R516). -/
theorem Isolated.setT14 (v : Word) : Isolated s (t.setLevel 14 { t.level 14 with t := v }) where
  control := { h.control with }
  inbox := h.inbox
  levels lv hlv := by
    obtain ⟨butT, other⟩ := h.levels lv hlv
    by_cases h14 : lv = 14
    · subst h14
      refine ⟨?_, fun ne => absurd rfl ne⟩
      rw [State.setLevel_level_same, butT]
    · rw [State.setLevel_level_ne _ _ h14]
      exact ⟨butT, other⟩
  latched := h.latched

/-- A cause has the code it had. -/
theorem Isolated.intCode (c : IntCode) : t.intCode c = s.intCode c := by
  cases c <;> simp only [State.intCode, h.control.params]

/-- A request latches PVL and PID[14]; IIC takes the code of its cause, or keeps an unread one (R712). -/
theorem Isolated.request (c : IntCode) : Isolated s (t.request c) where
  control := { h.control with }
  inbox := h.inbox
  levels := h.levels
  latched := by
    have pid : (t.request c).pid = s.pid ||| 0o40000 := by
      rw [State.request_pid]
      rcases h.latched with ⟨same, -⟩ | ⟨set, -⟩
      · rw [same]; rfl
      · rw [set, setBit_or, BitVec.or_assoc]; rfl
    refine .inr ⟨pid, h.control.pil, ?_⟩
    rcases t.request_iic c with own | ⟨unread, kept⟩
    · exact .inl ⟨c, own.trans (h.intCode c)⟩
    · rw [kept]
      rcases h.latched with ⟨-, -, same⟩ | ⟨-, -, codes⟩
      · exact .inr ⟨same ▸ unread, same⟩
      · exact codes

end

/-- The updates open to every instruction, and stores, reach nothing that only the entitled may reach. -/
theorem isolated_storeKept (s : State) : StoreKept (Isolated s) where
  setCur t r h := h.update t.mem t.pt t.draws fun _ hlv => State.setCur_level_ne t r (h.control.pil ▸ hlv)
  mark t _ o _ h := by cases o <;> exact h.update t.mem _ t.draws fun _ _ => rfl
  drawn t n h := h.update t.mem t.pt (t.draws + n) fun _ _ => rfl
  request _ c h := h.request c
  writePlace t _ p _ h := by cases p <;> exact h.update _ _ t.draws fun _ _ => rfl

/-- Of the instructions that write control state or another level, only MON and EXR are not privileged (R732). -/
theorem mon_or_exr_or_not_writes {i : Instr} (hpriv : isPrivileged i = false) :
    (∃ n, i = .mon n) ∨ (∃ sr ign, i = .exr sr ign) ∨ (writesControl i = false ∧ writesOtherLevel i = false) := by
  cases i with
  | mon n => exact .inl ⟨n, rfl⟩
  | exr sr ign => exact .inr (.inl ⟨sr, ign, rfl⟩)
  | iof | ion | pof | pon | piof | pion | sex | rex | wait | trr | mcl | mst | wglob | irw | lrb => cases hpriv
  | _ => exact .inr (.inr ⟨rfl, rfl⟩)

/-- An instruction that is not privileged and writes neither control state nor another level makes only the updates
open to every instruction, and stores. -/
theorem keptBy_isolated {i : Instr} (hpriv : isPrivileged i = false) (hcontrol : writesControl i = false)
    (hlevel : writesOtherLevel i = false) (s : State) : KeptBy i (Isolated s) where
  toKept := (isolated_storeKept s).toKept
  store _ := isolated_storeKept s
  setLevel h := absurd h (by simp [hlevel])
  control h := absurd h (by simp [hcontrol])
  emit h := absurd h (by simp [hpriv])
  setIic h := absurd h (by simp [hpriv])

/-- A trap taken where nothing has changed. -/
theorem takeTrap_isolated {c : IntCode} {s t : State} : takeTrap c s = .next t → Isolated s t :=
  (isolated_storeKept s).next (b := s) (r := .trap c s) (Isolated.refl s)

/-- MON writes T of level 14 and requests the monitor call (R516). -/
theorem monitorCalled_isolated (s : State) (n : BitVec 8) :
    Isolated s ((s.monitorCalled n).requestIfEnabled .monitorCall) :=
  (isolated_storeKept s).requestIfEnabled ((isolated_storeKept s).advance ((Isolated.refl s).setT14 (sext8 n))) _

/-- Every meaning an instruction has, in the program of EXR too: the trap of the privileged, MON, a nested EXR, and the
instructions that make only harmless updates. -/
theorem execPlain_isolated {i : Instr} {s t : State} (he : s.entitled = false) (h : execPlain i s = .next t) :
    Isolated s t := by
  cases hpriv : isPrivileged i with
  | true =>
    have notExr (sr : RegCode) (ign : BitVec 3) : i ≠ .exr sr ign := by
      rintro rfl
      cases hpriv
    rw [← exec_eq_execPlain notExr, privilegedTraps i s hpriv he] at h
    exact takeTrap_isolated h
  | false =>
    rcases mon_or_exr_or_not_writes hpriv with ⟨n, rfl⟩ | ⟨sr, ign, rfl⟩ | ⟨hcontrol, hlevel⟩
    · have called := (exec_mon n s).symm.trans h
      cases called
      exact monitorCalled_isolated s n
    · exact (isolated_storeKept s).next_setCur (Isolated.refl s) h
    · exact execPlain_keeps (keptBy_isolated hpriv hcontrol hlevel s) (Isolated.refl s) h

/-- EXR traps or executes a word that is isolated itself (R270). -/
theorem exec_isolated {i : Instr} {s t : State} (he : s.entitled = false) (h : exec i s = .next t) :
    Isolated s t := by
  by_cases notExr : ∀ sr ign, i ≠ .exr sr ign
  · exact execPlain_isolated he (exec_eq_execPlain notExr s ▸ h)
  · simp only [ne_eq, not_forall, not_not] at notExr
    obtain ⟨sr, ign, rfl⟩ := notExr
    rcases exec_exr_next h with h | ⟨j, -, h⟩
    · exact takeTrap_isolated h
    · exact execPlain_isolated he h

/-- Settles O15: no update that an instruction of an unentitled program makes reaches what only the entitled may. -/
theorem unentitledIsolation : Obligations.UnentitledIsolation := by
  unfold Obligations.UnentitledIsolation
  intro i s t he h
  obtain ⟨control, inbox, levels, latched⟩ := exec_isolated he h
  exact ⟨control, inbox, levels, latched⟩

end Sys2Proof.Machine

namespace Sys2Proof.Machine

open Sys2Proof Sys2Proof.Config

/-! # Interrupts: level selection, host events, traps, the error flag -/

/-! ## Level selection (R703) -/

/-- Settles O6: the selected level is the highest bit of PID and PIE, or 0. -/
theorem levelSelection : Obligations.LevelSelection := by
  unfold Obligations.LevelSelection
  refine fun s => ⟨State.select_off, fun hon => ⟨s.select_eq, fun lv hreq => ?highest, ?requests⟩⟩
  case highest =>
    obtain ⟨detected, enabled⟩ := hreq
    rw [State.select_on hon]
    exact le_highestBit (Nat.le_of_lt_succ lv.isLt) (by rw [BitVec.getLsbD_and, detected, enabled]; rfl)
  case requests =>
    rcases highestBit_set (s.pid &&& s.pie) 15 with zero | set
    · exact .inr (BitVec.eq_of_toNat_eq ((State.select_on hon).trans zero))
    · rw [← State.select_on hon, BitVec.getLsbD_and, Bool.and_eq_true] at set
      exact .inl set

/-! ## Host events (R700 step 1) -/

/-- The PID bits of devices are 10 to 13 and 15 (R706). -/
theorem getLsbD_deviceLevels (n : Nat) :
    deviceLevels.getLsbD n = decide ((10 ≤ n ∧ n ≤ 13) ∨ n = 15) := by
  by_cases h : n < 16
  · revert n
    decide
  · rw [BitVec.getLsbD_of_ge _ _ (by omega), eq_comm, decide_eq_false_iff_not]
    omega

/-- What host events may leave: only memory, PID, the latches of an internal interrupt and the run state written, and
no PID bit cleared. -/
def HostKept (s t : State) : Prop :=
  t = { s with mem := t.mem, pid := t.pid, iic := t.iic, pvl := t.pvl, run := t.run, draws := t.draws } ∧
    ∀ n, s.pid.getLsbD n = true → t.pid.getLsbD n = true

theorem HostKept.refl (s : State) : HostKept s s := ⟨rfl, fun _ h => h⟩

theorem HostKept.trans {s t u : State} (h : HostKept s t) (k : HostKept t u) : HostKept s u := by
  refine ⟨?_, fun n set => k.2 n (h.2 n set)⟩
  rw [k.1, h.1]

theorem State.foldl_takeEvent_hostKept (s : State) (es : List HostEvent) :
    HostKept s (es.foldl State.takeEvent s) := by
  induction es generalizing s with
  | nil => exact HostKept.refl s
  | cons e es ih => exact HostKept.trans (s.takeEvent_eq e) (ih (s.takeEvent e))

/-- The queue moves on, and the events of this step happen. -/
theorem State.takeEvents_hostKept (s : State) : HostKept (s.setInbox s.inbox.tail) s.takeEvents :=
  State.foldl_takeEvent_hostKept _ _

/-- Settles O7: the mask of a device's request bit by bit, and what each event keeps, all of them keep. -/
theorem hostEventsFrame : Obligations.HostEventsFrame := by
  unfold Obligations.HostEventsFrame
  refine ⟨fun s lv => ⟨rfl, fun n => ?bits⟩, fun s => ?frame⟩
  case bits =>
    have requested : (s.takeEvent (.deviceRequest lv)).pid = s.pid ||| (lv &&& deviceLevels) := rfl
    rw [requested, BitVec.getLsbD_or, BitVec.getLsbD_and, getLsbD_deviceLevels]
  case frame =>
    obtain ⟨rest, pid⟩ := s.takeEvents_hostKept
    refine ⟨?_, ?_, ?_, ?_, ?_, ?_, ?_, ?_, ?_, ?_, ?_, ?_, ?_, pid⟩
    all_goals exact rest ▸ rfl

/-! ## Taking an internal interrupt of kind fault (R712) -/

theorem State.faultTakeable_iff (s : State) (c : IntCode) : s.faultTakeable c = true ↔
    s.ioni = true ∧ s.pie.getLsbD 14 = true ∧ s.iie.getLsbD (s.intCode c).toNat = true ∧ s.pil.toNat < 14 := by
  rw [State.faultTakeable, Bool.and_eq_true, Bool.and_eq_true, Bool.and_eq_true, decide_eq_true_eq, and_assoc,
    and_assoc, State.causeEnabled]

theorem takeTrap_of_takeable {c : IntCode} {s : State} (h : s.faultTakeable c = true) :
    takeTrap c s = .next (s.request c) := if_pos h

theorem takeTrap_of_not_takeable {c : IntCode} {s : State} (h : ¬s.faultTakeable c = true) :
    takeTrap c s = .fault (.trapNotTakeable c) := if_neg h

/-- A fault that was taken could be taken. -/
theorem takeTrap_next {c : IntCode} {s t : State} (h : takeTrap c s = .next t) :
    s.faultTakeable c = true ∧ t = s.request c := by
  by_cases takeable : s.faultTakeable c = true
  · rw [takeTrap_of_takeable takeable] at h
    exact ⟨takeable, (Host.Outcome.next.inj h).symm⟩
  · rw [takeTrap_of_not_takeable takeable] at h
    cases h

/-- After a request, level 14 requests if it is enabled. -/
theorem State.requesting_request_14 {s : State} (c : IntCode) (enabled : s.pie.getLsbD 14 = true) :
    (s.request c).Requesting 14 := by
  refine ⟨?_, enabled⟩
  rw [State.request_pid, getLsbD_setBit]
  rfl

/-- A request makes no level above 14 request. -/
theorem State.requesting_request_le {s : State} {c : IntCode} (quiet : ¬s.Requesting 15) {k : Level}
    (hk : (s.request c).Requesting k) : k.toNat ≤ 14 := by
  by_contra high
  have top : k = 15 := by bv_omega
  subst top
  obtain ⟨detected, enabled⟩ := hk
  rw [State.request_pid, getLsbD_setBit, if_neg (by decide)] at detected
  exact quiet ⟨detected, enabled⟩

/-- Settles O8: what is requested, and that level 14 is then the highest level requesting. -/
theorem trapTaken : Obligations.TrapTaken := by
  unfold Obligations.TrapTaken
  refine ⟨fun c s => ⟨fun takeable => ?taken, fun not => ?stops⟩, fun c s t h quiet none15 => ?next,
    fun s codes => ?codes⟩
  case taken =>
    exact ⟨_, takeTrap_of_takeable ((s.faultTakeable_iff c).2 takeable), s.request_requested c⟩
  case stops => exact takeTrap_of_not_takeable fun takeable => not ((s.faultTakeable_iff c).1 takeable)
  case next =>
    obtain ⟨takeable, rfl⟩ := takeTrap_next h
    obtain ⟨hon, enabled, -, -⟩ := (s.faultTakeable_iff c).1 takeable
    have front : (s.request c).front = ((s.request c).setInbox s.inbox.tail).setPil 14 :=
      State.front_of_highest quiet hon (State.requesting_request_14 c enabled) fun _ =>
        State.requesting_request_le none15
    rw [front]
    exact ⟨rfl, rfl, rfl, rfl⟩
  case codes =>
    simp only [State.intCode, codes]
    exact ⟨rfl, rfl, rfl, rfl, rfl, rfl, rfl, rfl, rfl, rfl⟩

/-! ## The error flag (R708) -/

/-- Settles O9: Z newly set and its cause enabled is the condition of the request. -/
theorem errorFlagRequest : Obligations.ErrorFlagRequest := by
  unfold Obligations.ErrorFlagRequest
  refine fun before after => ⟨fun ⟨clear, set, enabled⟩ => ?request, fun not => ?nothing⟩
  case request =>
    have newlySet : (!before.errorFlag && after.errorFlag) = true := by
      rw [Bool.and_eq_true, Bool.not_eq_true']
      exact ⟨clear, set⟩
    rw [State.raiseErrorFlag, if_pos newlySet, State.requestIfEnabled_on enabled]
    exact after.request_requested .errorFlag
  case nothing =>
    unfold State.raiseErrorFlag
    split
    · next newlySet =>
      rw [Bool.and_eq_true, Bool.not_eq_true'] at newlySet
      obtain ⟨clear, set⟩ := newlySet
      exact State.requestIfEnabled_off (Bool.eq_false_iff.2 fun enabled => not ⟨clear, set, enabled⟩)
    · rfl

end Sys2Proof.Machine

namespace Sys2Proof.Machine

open Sys2Proof Sys2Proof.Config

/-! # The step -/

/-! ## Fetch and decode (R91, R150) -/

/-- The two bytes at a place, left byte first, are the word there (R81). -/
theorem cellsOf_bytes (s : State) (p : TransTarget) :
    ∃ left right, (cellsOf p).map s.byteOf = [left, right] ∧ s.readPlace p = left ++ right := by
  cases p <;> exact ⟨_, _, rfl, rfl⟩

theorem decodeWord_of_decode_ok {s : State} {p : TransTarget} {i : Instr}
    (h : decode ((cellsOf p).map s.byteOf) = .ok (i, [])) : decodeWord (s.readPlace p) = some i := by
  obtain ⟨left, right, bytes, word⟩ := cellsOf_bytes s p
  rw [bytes, decode] at h
  rw [word]
  split at h
  · next found => cases h; exact found
  · cases h

theorem decodeWord_of_decode_error {s : State} {p : TransTarget} {e : DecodeError}
    (h : decode ((cellsOf p).map s.byteOf) = .error e) : decodeWord (s.readPlace p) = none := by
  obtain ⟨left, right, bytes, word⟩ := cellsOf_bytes s p
  rw [bytes, decode] at h
  rw [word]
  split at h
  · cases h
  · next unassigned => exact unassigned

section

variable {s t : State}

theorem fetchInstr_some {p : TransTarget} {i : Instr} (h : locate .fetch .untagged s.cur.p s = .ok p t)
    (hi : decodeWord (t.readPlace p) = some i) : fetchInstr s = .ok i t := by
  simp only [fetchInstr, fetchWord, h, Res.bind_ok, hi]

theorem fetchInstr_none {p : TransTarget} (h : locate .fetch .untagged s.cur.p s = .ok p t)
    (hi : decodeWord (t.readPlace p) = none) : fetchInstr s = .trap .illegalInstruction t := by
  simp only [fetchInstr, fetchWord, h, Res.bind_ok, hi]

theorem fetchInstr_trap {c : IntCode} (h : locate .fetch .untagged s.cur.p s = .trap c t) :
    fetchInstr s = .trap c t := by
  simp only [fetchInstr, fetchWord, h, Res.bind_trap]

/-! ## A step by its front and its fetch (R700) -/

theorem step_of_fetch {i : Instr} (hrun : s.run = .running) (h : fetchInstr s.front = .ok i t) :
    step s = exec i t := by
  simp only [step, hrun, stepWith, h]

theorem step_of_fetch_trap {c : IntCode} (hrun : s.run = .running) (h : fetchInstr s.front = .trap c t) :
    step s = takeTrap c t := by
  simp only [step, hrun, stepWith, h]

theorem step_stopped (hrun : s.run = .stopped) : step s = .next s.takeEvents := by
  simp only [step, hrun]

end

/-- Settles O4: the fetch answers the instruction, and leaves marks. -/
theorem stepRunsDecoded : Obligations.StepRunsDecoded := by
  unfold Obligations.StepRunsDecoded
  intro s s1 p i hrun hl hd
  exact ⟨step_of_fetch hrun (fetchInstr_some hl (decodeWord_of_decode_ok hd)), locate_ok hl⟩

/-- Settles O5: a fetch that faults changes nothing; host events keep the registers and PIL. -/
theorem stepWithoutInstruction : Obligations.StepWithoutInstruction := by
  unfold Obligations.StepWithoutInstruction
  refine ⟨⟨fun s s1 c hrun hl => ?fault, fun s s1 p e hrun hl hd => ?unassigned⟩, fun s hrun => ?stopped⟩
  case fault =>
    obtain rfl := locate_trap hl
    exact step_of_fetch_trap hrun (fetchInstr_trap hl)
  case unassigned => exact step_of_fetch_trap hrun (fetchInstr_none hl (decodeWord_of_decode_error hd))
  case stopped =>
    obtain ⟨regs, pil, -⟩ := hostEventsFrame.2 s
    refine ⟨step_stopped hrun, regs, pil, State.takeEvents_none, fun start => ?_⟩
    rw [State.takeEvents, start]
    rfl

end Sys2Proof.Machine

namespace Sys2Proof.Machine

open Sys2Proof Sys2Proof.Config

/-! # Page-table lists (R610 to R613) -/

/-! ## Accesses between writes of registers -/

section

variable {s t : State}

/-- Memory accesses do not move a physical place (R85). -/
theorem SameMachine.physPlace (same : SameMachine s t) (b a : Word) : t.physPlace b a = s.physPlace b a := by
  have bank : t.bank b = s.bank b := by rw [State.bank, State.bank, same.system.sexi]
  rw [State.physPlace, State.physPlace, bank]

theorem SameMachine.installed (same : SameMachine s t) (p : TransTarget) : t.installed p = s.installed p := by
  cases p <;> simp only [State.installed, same.system.params]

theorem physRead_setCur {b a : Word} (same : SameMachine s t) (hi : s.installed (s.physPlace b a) = true)
    (q : RegSet) : physRead b a (t.setCur q) = .ok (t.readPlace (s.physPlace b a)) (t.setCur q) := by
  have place : (t.setCur q).physPlace b a = s.physPlace b a := same.physPlace b a
  rw [← same.installed] at hi
  rw [physRead_installed (by rw [place, State.installed_setCur, hi]), place, State.readPlace_setCur]

theorem physWrite_setCur {b a : Word} (same : SameMachine s t) (hi : s.installed (s.physPlace b a) = true)
    (v : Word) (q : RegSet) :
    physWrite b a v (t.setCur q) = .ok () ((t.writePlace v (s.physPlace b a)).setCur q) := by
  have place : (t.setCur q).physPlace b a = s.physPlace b a := same.physPlace b a
  rw [← same.installed] at hi
  rw [physWrite_installed (by rw [place, State.installed_setCur, hi]), place, State.writePlace_setCur]

variable {q : RegSet} {a v : Word} (hq : q.sts = s.cur.sts)
include hq

theorem memRead_setCur_ok (h : memRead a s = .ok v t) : memRead a (s.setCur q) = .ok v (t.setCur q) := by
  rw [memRead_setCur hq, h, Res.mapState_ok]

theorem memWrite_setCur_ok (h : memWrite a v s = .ok () t) : memWrite a v (s.setCur q) = .ok () (t.setCur q) := by
  rw [memWrite_setCur hq, h, Res.mapState_ok]

end

/-! ## The words of a record, its entry, and its map word -/

/-- Word `k` of the record at X, in bank T (R610). -/
def State.recordWord (s : State) (k : Word) : Word := s.readPlace (s.physPlace s.cur.t (s.cur.x + k))

theorem entryAddr_in_range (n : Word) : 65024 ≤ (entryAddr n).toNat := by
  rw [entryAddr, BitVec.toNat_or]
  exact Nat.left_le_or

/-- An entitled program reads a page-table entry without translation (R97). -/
theorem memRead_entryAddr {s : State} (he : s.entitled = true) (n : Word) :
    memRead (entryAddr n) s = .ok (s.flatWord (entryAddr n)) s := by
  rw [State.flatWord, flatPlace_high (entryAddr_in_range n), memRead, memReadVia,
    locate_table he (entryAddr_in_range n), Res.bind_ok]

/-- The map word of entry `n`: bits 6 to 4 of `n` count words from L (R613). -/
theorem mapWordAddr_eq (l n : Word) : mapWordAddr l n = l + BitVec.ofNat 16 (n.toNat / 16 % 8) := by
  have index : (n >>> 4 &&& 7) = BitVec.ofNat 16 (n.toNat / 16 % 8) := by
    apply BitVec.eq_of_toNat_eq
    rw [BitVec.toNat_and, BitVec.toNat_ushiftRight, Nat.shiftRight_eq_div_pow, BitVec.toNat_ofNat]
    have low : n.toNat / 16 &&& 7 = n.toNat / 16 % 8 := Nat.and_two_pow_sub_one_eq_mod _ 3
    exact low.trans (Nat.mod_eq_of_lt (by omega)).symm
  rw [mapWordAddr, index]

/-- A word is known by its bits (R350). -/
theorem eq_setBit_of_bits {w v : Word} {k : Nat} {b : Bool}
    (h : ∀ i, i < 16 → w.getLsbD i = if i = k then b else v.getLsbD i) : w = setBit v k b :=
  BitVec.eq_of_getLsbD_eq fun i hi => (h i hi).trans (getLsbD_setBit_word v k b i hi).symm

/-- The registers at an entry: B its address, A its first word (R612, R613). -/
def RegSet.atEntry (r : RegSet) (entry first : Word) : RegSet := { r with a := first, b := entry }

/-! ## The parts of a record's work -/

section

variable {s : State}

/-- The entry's number and its first word read (R612, R613). -/
theorem loadEntry_ok {entry : Word} (he : s.entitled = true)
    (hi : s.installed (s.physPlace s.cur.t (s.cur.x + 1)) = true) (hentry : entryAddr (s.recordWord 1) = entry) :
    loadEntry s = .ok (s.recordWord 1) (s.setCur (s.cur.atEntry entry (s.flatWord entry))) := by
  subst hentry
  have entryRead := memRead_setCur_ok (q := { s.cur with b := entryAddr (s.recordWord 1) }) rfl
    (memRead_entryAddr he (s.recordWord 1))
  have numberRead : physRead s.cur.t (s.cur.x + 1) s = .ok (s.recordWord 1) s := physRead_installed hi
  rw [loadEntry, numberRead, Res.bind_ok, entryRead, Res.bind_ok, State.setCur_cur, State.setCur_setCur,
    RegSet.atEntry]

variable {t u : State} {q : RegSet}

/-- X goes on to the next record, read where the accesses have left the stores (R612, R613). -/
theorem nextRecord_ok (same : SameMachine s t) (hi : s.installed (s.physPlace q.t q.x) = true) :
    nextRecord (t.setCur q) = .ok () (t.setCur { q with x := t.readPlace (s.physPlace q.t q.x) }) := by
  rw [nextRecord, State.setCur_cur, physRead_setCur same hi, Res.bind_ok, State.setCur_cur, State.setCur_setCur]

/-- The entry's first word goes into the record, and then the entry is cleared (R612). -/
theorem saveAndClear_ok (same : SameMachine s u) (hq : q.sts = s.cur.sts)
    (hi : s.installed (s.physPlace q.t (q.x + 2)) = true)
    (hw : memWrite q.b 0 (u.writePlace q.a (s.physPlace q.t (q.x + 2))) = .ok () t) :
    saveAndClear (u.setCur q) = .ok () (t.setCur q) := by
  rw [saveAndClear, State.setCur_cur, physWrite_setCur same hi, Res.bind_ok, State.setCur_cur]
  exact memWrite_setCur_ok (by rw [State.writePlace_cur, same.cur, hq]) hw

/-- The PGU bit, bit 11 of the entry's first word, goes into the map (R613). -/
theorem collectPgu_ok {n v : Word} (hq : q.sts = s.cur.sts) (hr : memRead (mapWordAddr q.l n) s = .ok v u)
    (hw : memWrite (mapWordAddr q.l n) (setBit v (bitPos n) (q.a.getLsbD 11)) u = .ok () t) :
    collectPgu n (s.setCur q) = .ok () (t.setCur q) := by
  rw [collectPgu, State.setCur_cur, memRead_setCur_ok hq hr, Res.bind_ok, State.setCur_cur]
  exact memWrite_setCur_ok (by rw [(memRead_ok hr).cur, hq]) hw

end

/-! ## The three instructions -/

section

variable {s : State} (he : s.entitled = true) {record : Res Unit}
include he

/-- The end of the chain: P goes on (R611, R612, R613). -/
theorem finish_list_end (hx : s.cur.x = 0) :
    finish s (privileged s (if s.cur.x = 0 then .ok () s.advance else record)) =
      .next (s.setCur { s.cur with p := s.cur.p + 1 }) := by
  rw [if_pos hx]
  exact finish_entitled_advance he rfl

/-- One record, which leaves the flags. -/
theorem finish_list_record {t : State} {q : RegSet} (hx : s.cur.x ≠ 0) (h : record = .ok () (t.setCur q))
    (hq : q.sts = s.cur.sts) :
    finish s (privileged s (if s.cur.x = 0 then .ok () s.advance else record)) = .next (t.setCur q) := by
  rw [if_neg hx, finish_entitled he, h]
  exact finish_ok_cur hq

end

section

variable {s s1 s2 : State} {entry : Word} (he : s.entitled = true) (hx : s.cur.x ≠ 0)
  (h0 : s.installed (s.physPlace s.cur.t s.cur.x) = true)
  (h1 : s.installed (s.physPlace s.cur.t (s.cur.x + 1)) = true)
  (h2 : s.installed (s.physPlace s.cur.t (s.cur.x + 2)) = true)
  (hentry : entryAddr (s.recordWord 1) = entry)
include he hx h0 h1 hentry

include h2 in
/-- SETPT (R611): the record's two words go into the entry, PGU cleared. -/
theorem exec_setpt (h3 : s.installed (s.physPlace s.cur.t (s.cur.x + 3)) = true)
    (hw1 : memWrite entry (s.recordWord 2 &&& ~~~0o4000) s = .ok () s1)
    (hw2 : memWrite (entry + 1) (s.recordWord 3) s1 = .ok () s2) :
    exec .setpt s = .next (s2.setCur { s.cur with
      a := s.recordWord 2 &&& ~~~0o4000, d := s.recordWord 3, b := entry,
      x := s2.readPlace (s.physPlace s.cur.t s.cur.x) }) := by
  subst hentry
  have same1 := memWrite_sameMachine hw1
  have read {a : Word} (hi : s.installed (s.physPlace s.cur.t a) = true) := physRead_setCur (SameMachine.refl s) hi
  have firstRead : physRead s.cur.t (s.cur.x + 2) s = .ok (s.recordWord 2) s := physRead_installed h2
  refine finish_list_record he hx ?_ rfl
  simp only [setptRecord, firstRead, read h3, read h1, Res.bind_ok, State.setCur_cur, State.setCur_setCur]
  refine Res.bind_eq_ok.2 ⟨(), _, memWrite_setCur_ok rfl hw1, ?_⟩
  rw [State.setCur_cur]
  refine Res.bind_eq_ok.2 ⟨(), _, memWrite_setCur_ok (congrArg RegSet.sts same1.cur).symm hw2, ?_⟩
  exact nextRecord_ok (same1.trans (memWrite_sameMachine hw2)) h0

/-- An entry that is not in use is left (R612, R613). -/
theorem exec_clept_clepu_unused (hold : s.flatWord entry = 0) {i : Instr} (hi : i = .clept ∨ i = .clepu) :
    exec i s = .next (s.setCur { s.cur with
      a := 0, b := entry, x := s.readPlace (s.physPlace s.cur.t s.cur.x) }) := by
  have loaded := loadEntry_ok he h1 hentry
  rw [hold] at loaded
  have next := nextRecord_ok (q := s.cur.atEntry entry 0) (SameMachine.refl s) h0
  have unused : (s.cur.atEntry entry 0).a = 0 := rfl
  rcases hi with rfl | rfl
  · refine finish_list_record he hx ?_ rfl
    rw [cleptRecord, loaded, Res.bind_ok, State.setCur_cur, if_pos unused]
    exact next
  · refine finish_list_record he hx ?_ rfl
    rw [clepuRecord, loaded, Res.bind_ok, State.setCur_cur, if_pos unused]
    exact next

include h2

/-- CLEPT of an entry in use (R612). -/
theorem exec_clept (hold : s.flatWord entry ≠ 0)
    (hw : memWrite entry 0 (s.writePlace (s.flatWord entry) (s.physPlace s.cur.t (s.cur.x + 2))) = .ok () s1) :
    exec .clept s = .next (s1.setCur { s.cur with
      a := s.flatWord entry, b := entry, x := s1.readPlace (s.physPlace s.cur.t s.cur.x) }) := by
  have same := (s.sameMachine_writePlace _ _).trans (memWrite_sameMachine hw)
  have inUse : (s.cur.atEntry entry (s.flatWord entry)).a ≠ 0 := hold
  have saved := saveAndClear_ok (q := s.cur.atEntry entry (s.flatWord entry)) (SameMachine.refl s) rfl h2 hw
  refine finish_list_record he hx ?_ rfl
  rw [cleptRecord, loadEntry_ok he h1 hentry, Res.bind_ok, State.setCur_cur, if_neg inUse, saved, Res.bind_ok]
  exact nextRecord_ok same h0

/-- CLEPU of an entry in use (R613). -/
theorem exec_clepu {s3 : State} {v map word : Word} (hold : s.flatWord entry ≠ 0)
    (hmap : mapWordAddr s.cur.l (s.recordWord 1) = map) (hr : memRead map s = .ok v s1)
    (hword : setBit v (bitPos (s.recordWord 1)) ((s.flatWord entry).getLsbD 11) = word)
    (hw : memWrite map word s1 = .ok () s2)
    (hc : memWrite entry 0 (s2.writePlace (s.flatWord entry) (s.physPlace s.cur.t (s.cur.x + 2))) = .ok () s3) :
    exec .clepu s = .next (s3.setCur { s.cur with
      a := s.flatWord entry, b := entry, x := s3.readPlace (s.physPlace s.cur.t s.cur.x) }) := by
  subst hmap hword
  have same2 := (memRead_ok hr).sameMachine.trans (memWrite_sameMachine hw)
  have same3 := (same2.trans (s2.sameMachine_writePlace _ _)).trans (memWrite_sameMachine hc)
  have inUse : (s.cur.atEntry entry (s.flatWord entry)).a ≠ 0 := hold
  have collected := collectPgu_ok (q := s.cur.atEntry entry (s.flatWord entry)) rfl hr hw
  have saved := saveAndClear_ok (q := s.cur.atEntry entry (s.flatWord entry)) same2 rfl h2 hc
  refine finish_list_record he hx ?_ rfl
  rw [clepuRecord, loadEntry_ok he h1 hentry, Res.bind_ok, State.setCur_cur, if_neg inUse, collected, Res.bind_ok,
    saved, Res.bind_ok]
  exact nextRecord_ok same3 h0

end

/-! ## With memory management off -/

/-- What saving an entry's first word at a place and clearing it there leaves (R612). -/
def State.savedAndCleared (s : State) (old : Word) (p : TransTarget) (entry : Word) : State :=
  (s.writePlace old p).writePlace 0 (flatPlace entry)

section

variable (s : State) (old : Word) (p : TransTarget) (entry : Word)

theorem memWrite_clear_flat (hflat : s.Flat) :
    memWrite entry 0 (s.writePlace old p) = .ok () (s.savedAndCleared old p entry) :=
  memWrite_flat ((State.flat_writePlace s old p).2 hflat) entry 0

theorem State.sameMachine_savedAndCleared : SameMachine s (s.savedAndCleared old p entry) :=
  (s.sameMachine_writePlace _ _).trans (State.sameMachine_writePlace _ _ _)

theorem State.sameBytesBut_savedAndCleared :
    SameBytesBut (cellsOf p ++ cellsOf (flatPlace entry)) s (s.savedAndCleared old p entry) :=
  (s.sameBytesBut_writePlace _ _).trans (State.sameBytesBut_writePlace _ _ _)

theorem State.savedAndCleared_flatWord_entry : (s.savedAndCleared old p entry).flatWord entry = 0 := by
  rw [State.savedAndCleared, State.flatWord_writePlace, if_pos rfl]

theorem State.savedAndCleared_readPlace_saved (h : p ≠ flatPlace entry) :
    (s.savedAndCleared old p entry).readPlace p = old := by
  rw [State.savedAndCleared, State.readPlace_writePlace, if_neg h, State.readPlace_writePlace_same]

theorem State.savedAndCleared_flatWord_other {a : Word} (hp : flatPlace a ≠ p) (he : a ≠ entry) :
    (s.savedAndCleared old p entry).flatWord a = s.flatWord a := by
  rw [State.savedAndCleared, State.flatWord_writePlace, if_neg he, State.flatWord, State.readPlace_writePlace,
    if_neg hp, State.flatWord]

end

section

variable {s : State} {entry : Word} (hflat : s.Flat) (hx : s.cur.x ≠ 0)
  (h0 : s.installed (s.physPlace s.cur.t s.cur.x) = true)
  (h1 : s.installed (s.physPlace s.cur.t (s.cur.x + 1)) = true)
  (h2 : s.installed (s.physPlace s.cur.t (s.cur.x + 2)) = true)
  (hentry : entryAddr (s.recordWord 1) = entry)
include hflat hx h0 h1 h2 hentry

/-- SETPT writes the entry's two words and no other byte. -/
theorem exec_setpt_flat (h3 : s.installed (s.physPlace s.cur.t (s.cur.x + 3)) = true) :
    ∃ t, exec .setpt s = .next t ∧ t.flatWord entry = s.recordWord 2 &&& ~~~0o4000 ∧
      t.flatWord (entry + 1) = s.recordWord 3 ∧
      SameBytesBut (cellsOf (flatPlace entry) ++ cellsOf (flatPlace (entry + 1))) s t ∧
      t.cur = { s.cur with
        a := s.recordWord 2 &&& ~~~0o4000, d := s.recordWord 3, b := entry,
        x := t.readPlace (s.physPlace s.cur.t s.cur.x) } ∧
      SameOtherLevels s t ∧ SameSystem s t := by
  have flat1 := (State.flat_writePlace s (s.recordWord 2 &&& ~~~0o4000) (flatPlace entry)).2 hflat
  have same := (s.sameMachine_writePlace (s.recordWord 2 &&& ~~~0o4000) (flatPlace entry)).trans
    (State.sameMachine_writePlace _ (s.recordWord 3) (flatPlace (entry + 1)))
  refine ⟨_, exec_setpt hflat.entitled hx h0 h1 h2 hentry h3 (memWrite_flat hflat _ _) (memWrite_flat flat1 _ _),
    ?first, ?second, ((s.sameBytesBut_writePlace _ _).trans (State.sameBytesBut_writePlace _ _ _)).setCur _, ?cur,
    same.sameOtherLevels_setCur _, same.sameSystem_setCur _⟩
  case first =>
    rw [State.flatWord_setCur, State.flatWord_writePlace, if_neg (show entry ≠ entry + 1 by bv_omega),
      State.flatWord_writePlace, if_pos rfl]
  case second => rw [State.flatWord_setCur, State.flatWord_writePlace, if_pos rfl]
  case cur => rw [State.setCur_cur, State.readPlace_setCur]

variable (hold : s.flatWord entry ≠ 0) (hsaved : s.physPlace s.cur.t (s.cur.x + 2) ≠ flatPlace entry)
include hold hsaved

/-- CLEPT writes the saved word and the entry's first word, and no other byte. -/
theorem exec_clept_flat :
    ∃ t, exec .clept s = .next t ∧ t.readPlace (s.physPlace s.cur.t (s.cur.x + 2)) = s.flatWord entry ∧
      t.flatWord entry = 0 ∧
      SameBytesBut (cellsOf (s.physPlace s.cur.t (s.cur.x + 2)) ++ cellsOf (flatPlace entry)) s t ∧
      t.cur = { s.cur with a := s.flatWord entry, b := entry, x := t.readPlace (s.physPlace s.cur.t s.cur.x) } ∧
      SameOtherLevels s t ∧ SameSystem s t := by
  have same := s.sameMachine_savedAndCleared (s.flatWord entry) (s.physPlace s.cur.t (s.cur.x + 2)) entry
  refine ⟨_, exec_clept hflat.entitled hx h0 h1 h2 hentry hold (memWrite_clear_flat s _ _ _ hflat), ?saved, ?cleared,
    (s.sameBytesBut_savedAndCleared _ _ _).setCur _, ?cur, same.sameOtherLevels_setCur _, same.sameSystem_setCur _⟩
  case saved => rw [State.readPlace_setCur, State.savedAndCleared_readPlace_saved _ _ _ _ hsaved]
  case cleared => rw [State.flatWord_setCur, State.savedAndCleared_flatWord_entry]
  case cur => rw [State.setCur_cur, State.readPlace_setCur]

/-- CLEPU writes the map word too, and no other byte. -/
theorem exec_clepu_flat {map word : Word} (hmap : mapWordAddr s.cur.l (s.recordWord 1) = map)
    (hword : setBit (s.flatWord map) (bitPos (s.recordWord 1)) ((s.flatWord entry).getLsbD 11) = word)
    (hapart : flatPlace map ≠ s.physPlace s.cur.t (s.cur.x + 2)) (hne : map ≠ entry) :
    ∃ t, exec .clepu s = .next t ∧ t.readPlace (s.physPlace s.cur.t (s.cur.x + 2)) = s.flatWord entry ∧
      t.flatWord entry = 0 ∧ t.flatWord map = word ∧
      SameBytesBut (cellsOf (s.physPlace s.cur.t (s.cur.x + 2)) ++ cellsOf (flatPlace entry) ++
        cellsOf (flatPlace map)) s t ∧
      t.cur = { s.cur with a := s.flatWord entry, b := entry, x := t.readPlace (s.physPlace s.cur.t s.cur.x) } ∧
      SameOtherLevels s t ∧ SameSystem s t := by
  have flat1 := (State.flat_writePlace s word (flatPlace map)).2 hflat
  have same := (s.sameMachine_writePlace word (flatPlace map)).trans
    (State.sameMachine_savedAndCleared _ (s.flatWord entry) (s.physPlace s.cur.t (s.cur.x + 2)) entry)
  have frame := (s.sameBytesBut_writePlace word (flatPlace map)).trans
    (State.sameBytesBut_savedAndCleared _ (s.flatWord entry) (s.physPlace s.cur.t (s.cur.x + 2)) entry)
  refine ⟨_, exec_clepu hflat.entitled hx h0 h1 h2 hentry hold hmap (memRead_flat hflat map) hword
    (memWrite_flat hflat map word) (memWrite_clear_flat _ _ _ _ flat1), ?saved, ?cleared, ?map, ?bytes, ?cur,
    same.sameOtherLevels_setCur _, same.sameSystem_setCur _⟩
  case saved => rw [State.readPlace_setCur, State.savedAndCleared_readPlace_saved _ _ _ _ hsaved]
  case cleared => rw [State.flatWord_setCur, State.savedAndCleared_flatWord_entry]
  case map =>
    rw [State.flatWord_setCur, State.savedAndCleared_flatWord_other _ _ _ _ hapart hne, State.flatWord_writePlace,
      if_pos rfl]
  case bytes =>
    refine SameBytesBut.setCur (fun c hc => frame c fun listed => hc ?_) _
    rw [List.mem_append] at listed ⊢
    exact listed.symm
  case cur => rw [State.setCur_cur, State.readPlace_setCur]

end

/-- Settles O59: each instruction's record as a chain of accesses, which with memory management off all answer. -/
theorem pageTableLists : Obligations.PageTableLists := by
  unfold Obligations.PageTableLists
  refine ⟨fun s he => ?chains, fun s hflat => ?flat⟩
  case chains =>
    intro r done there at' entry first old saved map
    have hentry : entryAddr (s.recordWord 1) = entry := entryAddr_eq _
    have hmap : mapWordAddr s.cur.l (s.recordWord 1) = map := mapWordAddr_eq _ _
    refine ⟨hentry ▸ memRead_entryAddr he _, fun hx => ?finished, fun hx h0 h1 => ⟨fun s1 s2 h2 h3 hw1 hw2 => ?setpt,
      fun hold i hi => ?unused, fun hold h2 => ⟨fun s1 hw => ?clept, fun v w s1 s2 s3 hr hbits hw hc => ?clepu⟩⟩⟩
    case finished => exact ⟨finish_list_end he hx, finish_list_end he hx, finish_list_end he hx⟩
    case setpt => exact exec_setpt he hx h0 h1 h2 hentry h3 hw1 hw2
    case unused => exact exec_clept_clepu_unused he hx h0 h1 hentry hold hi
    case clept => exact exec_clept he hx h0 h1 h2 hentry hold hw
    case clepu =>
      exact exec_clepu he hx h0 h1 h2 hentry hold hmap hr (eq_setBit_of_bits hbits).symm hw hc
  case flat =>
    intro r there at' entry hx h0 h1 h2 h3
    have hentry : entryAddr (s.recordWord 1) = entry := entryAddr_eq _
    refine ⟨exec_setpt_flat hflat hx h0 h1 h2 hentry h3, fun hold hsaved =>
      ⟨exec_clept_flat hflat hx h0 h1 h2 hentry hold hsaved, fun hapart hne => ?clepu⟩⟩
    case clepu =>
      obtain ⟨t, run, kept, cleared, word, rest⟩ :=
        exec_clepu_flat hflat hx h0 h1 h2 hentry hold hsaved (mapWordAddr_eq _ _) rfl hapart hne
      exact ⟨t, run, kept, cleared, fun k hk => word ▸ getLsbD_setBit_word _ _ _ k hk, rest⟩

end Sys2Proof.Machine
